-- ==== Sys2Proof/Word.lean ====
section
/-! DEFINITION. The machine's words: bytes, register words and byte spans (00_scope.md R7, R8). -/

namespace Sys2Proof

/-- A byte, 0 to 255 (00_scope.md R8). -/
abbrev Byte := BitVec 8

/-- The contents of an argument or result register: `ARG_W` bits, read as signed two's complement
(10_state.md R20). `ARG_W` is fixed at its default 64 (DESIGN CHOICE, log entry 1). -/
abbrev Word := BitVec 64

/-- A span: a finite sequence of bytes, byte 0 first (00_scope.md R8). -/
abbrev Span := List Byte

end Sys2Proof
end

