-- ==== Sys2Proof/Config.lean ====
section
/-! DEFINITION. What the document fixes (00_scope.md R4, R5), the open parameters at their defaults
(R6), the open parameter `FEC_CODE` (43_fec.md R171) and the model's free values. -/

namespace Sys2Proof

/-- The FEC decoder's history, `FEC_CODE.Hist` (10_state.md R30, 43_fec.md R171): an opaque type that
the code supplies. The model carries a history by its number, so that State is plain data; any code
whose histories can be counted fits (DESIGN CHOICE, log entry 5). -/
structure FecHist where
  number : Nat
  deriving DecidableEq, Repr, Inhabited

namespace Config

/-! ### Parameters fixed at their defaults (00_scope.md R6; log entries 1 to 3) -/

/-- `ARG_W`: bits of an argument or result register; `Word` has this width. -/
def argW : Nat := 64

/-- `BUF_CAP`: capacity in bytes of each of the two buffers. -/
def bufCap : Nat := 1024

/-- `FEC_GROUP`: bytes of a chunk, and encoded bytes per payload byte. -/
def fecGroup : Nat := 4

/-! ### Constants the document fixes (00_scope.md R4) -/

/-- `BF_W`: bits of the bit-packed word. -/
def bfW : Nat := 32

/-- `BF_LAYOUT`: widths of priority, source, destination, destination_port, source_port, flags. -/
def bfLayout : List Nat := [2, 5, 5, 6, 6, 8]

/-- `CRC_POLY`: the generator polynomial without its top term; not 0x1021 (90_conflicts.md C1). -/
def crcPoly : BitVec 16 := 0x8005#16

/-- `CRC_WIDTH`: bits of the CRC; the type of `State.crcAcc` has this width. -/
def crcWidth : Nat := 16

/-- `CRC_INIT`: the accumulator's seed. -/
def crcSeed : BitVec 16 := 0xFFFF#16

/-- `PN9_WIDTH`: bits of the whitening register; the type of `State.pn9` has this width. The taps that
`PN9_POLY` fixes stand in the one operation that advances the register (42_whitening.md R151). -/
def pn9Width : Nat := 9

/-- `PN9_SEED`: the whitening register's seed. -/
def pn9Seed : BitVec 9 := 0x1FF#9

/-- `ATH_LEN`: bytes of an encoded addressed header. -/
def athLen : Nat := 4

/-- `CP_HDR_LEN`: bytes of a client packet header. -/
def cpHdrLen : Nat := 7

/-- `CP_LEN_MIN`: least legal client header length field. -/
def cpLenMin : Nat := 6

/-- `CP_LEN_MAX`: greatest legal client header length field. -/
def cpLenMax : Nat := 251

/-- `SP_HDR_LEN`: bytes of a space packet header. -/
def spHdrLen : Nat := 6

/-- `SP_FTR_LEN`: bytes of a space packet footer. -/
def spFtrLen : Nat := 4

/-- `SP_LEN_MIN`: least legal space header length field. -/
def spLenMin : Nat := 10

/-- `SP_LEN_MAX`: greatest legal space header length field. -/
def spLenMax : Nat := 251

/-- `PREAMBLE`: a constant of the physical layer that no command emits or strips (48_link_chain.md
R263). -/
def preamble : Span := [0xAA, 0xAA, 0xAA, 0xAA]

/-- `SYNC_WORD`: a constant of the physical layer that no command emits or strips (48_link_chain.md
R263). -/
def syncWord : Span := [0xD3, 0x91, 0xD3, 0x91]

/-! ### Derived constants (00_scope.md R5) -/

/-- `CP_PAYLOAD_MAX` -/
def cpPayloadMax : Nat := 245

/-- `SP_PAYLOAD_MAX` -/
def spPayloadMax : Nat := 241

/-- `CP_FRAME_MAX` -/
def cpFrameMax : Nat := 252

/-- `SP_FRAME_MAX` -/
def spFrameMax : Nat := 251

end Config

/-- The record `FEC_CODE` (43_fec.md R171). Two laws of R172 are in the types: `encode p` has
`FEC_GROUP * p.length` bytes (L1), and a span that `step` returns fits the output buffer (L3). -/
structure FecCode where
  /-- the history the priming handshake installs -/
  hist0 : FecHist
  /-- the whole-span encoder, with L1 in its type -/
  encode : (p : Span) → Vector Byte (Config.fecGroup * p.length)
  /-- one chunk submission: `none` for a rejected chunk, else the new history and the bytes -/
  step : FecHist → Span → Option (FecHist × { out : Span // out.length ≤ Config.bufCap })
  deriving Inhabited

namespace Config

/-- The open parameter `FEC_CODE` of this machine: nothing is known of it but its type (00_scope.md
R6, 43_fec.md R171; log entry 4). -/
opaque fecCode : FecCode

/-- The free value of `FEC_HIST` after a reset event, "unspecified" in 10_state.md R33 and 47_system.md
R253; its argument is State's counter of free values (log entry 7). -/
opaque freeFecHist : Nat → FecHist

end Config
end Sys2Proof
end

