-- ==== Sys2Proof/Syntax.lean ====
section
/-! DEFINITION. The commands of the block, one constructor per row of spec/opcode_table.json
(30_encoding.md R72), and the actions by which the host drives it (10_state.md R39). -/

namespace Sys2Proof

/-- The 41 commands. A command word has no operand field (30_encoding.md R71): operands are the
argument registers, the input span and the engine registers that the command's rule names. -/
inductive Instr where
  /-- NOP (47_system.md R250) -/
  | nop
  /-- XFER (47_system.md R251) -/
  | xfer
  /-- CLRERR (47_system.md R252) -/
  | clrerr
  /-- SRESET (47_system.md R253) -/
  | sreset
  /-- BF.PACK (40_bitfield_byteorder.md R102) -/
  | bfPack
  /-- BF.UNPACK (40_bitfield_byteorder.md R103) -/
  | bfUnpack
  /-- PUT.U8 (40_bitfield_byteorder.md R106) -/
  | putU8
  /-- PUT.LE16 (40_bitfield_byteorder.md R107) -/
  | putLe16
  /-- PUT.BE16 (40_bitfield_byteorder.md R108) -/
  | putBe16
  /-- PUT.LE32 (40_bitfield_byteorder.md R109) -/
  | putLe32
  /-- PUT.BE32 (40_bitfield_byteorder.md R110) -/
  | putBe32
  /-- GET.U8 (40_bitfield_byteorder.md R111) -/
  | getU8
  /-- GET.LE16 (40_bitfield_byteorder.md R112) -/
  | getLe16
  /-- GET.BE16 (40_bitfield_byteorder.md R113) -/
  | getBe16
  /-- GET.LE32 (40_bitfield_byteorder.md R114) -/
  | getLe32
  /-- GET.BE32 (40_bitfield_byteorder.md R115) -/
  | getBe32
  /-- CRC.INIT (41_crc16.md R134) -/
  | crcInit
  /-- CRC.BIT (41_crc16.md R135) -/
  | crcBit
  /-- CRC.BYTE (41_crc16.md R136) -/
  | crcByte
  /-- CRC.READ (41_crc16.md R137) -/
  | crcRead
  /-- CRC.SPAN (41_crc16.md R138) -/
  | crcSpan
  /-- PN9.SEED (42_whitening.md R158) -/
  | pn9Seed
  /-- PN9.BIT (42_whitening.md R159) -/
  | pn9Bit
  /-- PN9.BYTE (42_whitening.md R160) -/
  | pn9Byte
  /-- WHITEN (42_whitening.md R161) -/
  | whiten
  /-- FEC.ENCODE (43_fec.md R173) -/
  | fecEncode
  /-- FEC.NEW (43_fec.md R175) -/
  | fecNew
  /-- FEC.PRIME (43_fec.md R176) -/
  | fecPrime
  /-- FEC.SUBMIT (43_fec.md R177) -/
  | fecSubmit
  /-- ATH.PACK (44_addressed_header.md R192) -/
  | athPack
  /-- ATH.UNPACK (44_addressed_header.md R193) -/
  | athUnpack
  /-- CPH.PACK (45_client_packet.md R202) -/
  | cphPack
  /-- CPH.UNPACK (45_client_packet.md R203) -/
  | cphUnpack
  /-- CP.PACK (45_client_packet.md R204) -/
  | cpPack
  /-- CP.UNPACK (45_client_packet.md R205) -/
  | cpUnpack
  /-- SPH.PACK (46_space_packet.md R222) -/
  | sphPack
  /-- SPH.UNPACK (46_space_packet.md R223) -/
  | sphUnpack
  /-- SPF.PACK (46_space_packet.md R226) -/
  | spfPack
  /-- SPF.UNPACK (46_space_packet.md R227) -/
  | spfUnpack
  /-- SP.PACK (46_space_packet.md R228) -/
  | spPack
  /-- SP.UNPACK (46_space_packet.md R230) -/
  | spUnpack
  deriving DecidableEq, Repr

/-- The command families, bits 7:4 of an opcode (30_encoding.md R71). -/
inductive Family where
  | system | bitfield | crc | whitening | fec | addressedHeader | clientPacket | spacePacket
  deriving DecidableEq, Repr

/-- The family a command belongs to: the rows of 30_encoding.md R72, in the order of R71. -/
def Instr.family : Instr → Family
  | .nop | .xfer | .clrerr | .sreset => .system
  | .bfPack | .bfUnpack | .putU8 | .putLe16 | .putBe16 | .putLe32 | .putBe32
  | .getU8 | .getLe16 | .getBe16 | .getLe32 | .getBe32 => .bitfield
  | .crcInit | .crcBit | .crcByte | .crcRead | .crcSpan => .crc
  | .pn9Seed | .pn9Bit | .pn9Byte | .whiten => .whitening
  | .fecEncode | .fecNew | .fecPrime | .fecSubmit => .fec
  | .athPack | .athUnpack => .addressedHeader
  | .cphPack | .cphUnpack | .cpPack | .cpUnpack => .clientPacket
  | .sphPack | .sphUnpack | .spfPack | .spfUnpack | .spPack | .spUnpack => .spacePacket

/-- The host's actions (10_state.md R39), as the host may write them down: the conditions of R39 are
checked by `HostAction.wellFormed`. -/
inductive HostAction where
  /-- `seta i, v`: write argument register `i` -/
  | seta (i : Nat) (v : Int)
  /-- `load B`: write the input span and its length -/
  | load (bytes : Span)
  /-- `cmd op`: issue the command whose opcode is `op`, any 8-bit value -/
  | cmd (op : Byte)
  /-- `geta i`: read argument register `i` -/
  | geta (i : Nat)
  /-- `getr i`: read result register `i` -/
  | getr (i : Nat)
  /-- `gets`: read `STATUS` -/
  | gets
  /-- `geti`: read the input span -/
  | geti
  /-- `geto`: read the output span -/
  | geto
  /-- `reset`: every register takes its reset value -/
  | reset
  deriving DecidableEq, Repr

/-- What a read action returns to the host (10_state.md R39). -/
inductive HostReply where
  /-- from `geta` and `getr` -/
  | word (v : Word)
  /-- from `gets` -/
  | status (v : BitVec 16)
  /-- from `geti` and `geto` -/
  | span (bytes : Span)
  deriving DecidableEq, Repr

end Sys2Proof
end

