-- ==== Sys2Proof/WellFormed.lean ====
section
/-! DEFINITION. Which commands and host actions are well formed (30_encoding.md R71, 10_state.md R39). -/

namespace Sys2Proof

/-- Every command is well formed: a command word has no register field, no immediate field and no mode
bits (30_encoding.md R71), so no operand can be out of range. -/
def Instr.wellFormed (_ : Instr) : Bool := true

/-- An index of an argument or result register, 0 to 7 (10_state.md R20, R21). -/
def registerIndexOk (i : Nat) : Bool := decide (i < 8)

/-- A value that fits a register, signed (10_state.md R20, R39). -/
def argumentFits (v : Int) : Bool :=
  decide (-(2 ^ (Config.argW - 1)) ≤ v) && decide (v < 2 ^ (Config.argW - 1))

/-- A span that fits the input buffer (10_state.md R36, R39). -/
def spanFits (bytes : Span) : Bool := decide (bytes.length ≤ Config.bufCap)

/-- The conditions of the table of 10_state.md R39. What fails them is "not an action of the model"
(93_implementation_defined.md U12). -/
def HostAction.wellFormed : HostAction → Bool
  | .seta i v => registerIndexOk i && argumentFits v
  | .load bytes => spanFits bytes
  | .cmd _ => true
  | .geta i => registerIndexOk i
  | .getr i => registerIndexOk i
  | .gets => true
  | .geti => true
  | .geto => true
  | .reset => true

end Sys2Proof
end

