-- ==== Sys2Proof/Decode.lean ====
section
/-! DEFINITION. The decoder, total on every 8-bit value (30_encoding.md R70 to R74), and after it the
encoder, written from the opcode map R72. -/

namespace Sys2Proof

/-- What the decoder reads from a command word. -/
inductive DecodeResult where
  /-- a command of 30_encoding.md R72 -/
  | instr (i : Instr)
  /-- a value R72 does not list: executing it raises Illegal(OPCODE) (30_encoding.md R74) -/
  | illegalOpcode (op : Byte)
  deriving DecidableEq, Repr

/-- Field `fam`, bits 7:4 (30_encoding.md R71). -/
def famField (op : Byte) : BitVec 4 := op.extractLsb' 4 4

/-- Field `fn`, bits 3:0 (30_encoding.md R71). -/
def fnField (op : Byte) : BitVec 4 := op.extractLsb' 0 4

/-- Family 0 of 30_encoding.md R72. -/
def decodeSystem (fn : BitVec 4) : Option Instr :=
  match fn with
  | 0x0#4 => some .nop
  | 0x1#4 => some .xfer
  | 0x2#4 => some .clrerr
  | 0x3#4 => some .sreset
  | _ => none

/-- Family 1 of 30_encoding.md R72. -/
def decodeBitfield (fn : BitVec 4) : Option Instr :=
  match fn with
  | 0x0#4 => some .bfPack
  | 0x1#4 => some .bfUnpack
  | 0x2#4 => some .putU8
  | 0x3#4 => some .putLe16
  | 0x4#4 => some .putBe16
  | 0x5#4 => some .putLe32
  | 0x6#4 => some .putBe32
  | 0xA#4 => some .getU8
  | 0xB#4 => some .getLe16
  | 0xC#4 => some .getBe16
  | 0xD#4 => some .getLe32
  | 0xE#4 => some .getBe32
  | _ => none

/-- Family 2 of 30_encoding.md R72. -/
def decodeCrc (fn : BitVec 4) : Option Instr :=
  match fn with
  | 0x0#4 => some .crcInit
  | 0x1#4 => some .crcBit
  | 0x2#4 => some .crcByte
  | 0x3#4 => some .crcRead
  | 0x4#4 => some .crcSpan
  | _ => none

/-- Family 3 of 30_encoding.md R72. -/
def decodeWhitening (fn : BitVec 4) : Option Instr :=
  match fn with
  | 0x0#4 => some .pn9Seed
  | 0x1#4 => some .pn9Bit
  | 0x2#4 => some .pn9Byte
  | 0x3#4 => some .whiten
  | _ => none

/-- Family 4 of 30_encoding.md R72. -/
def decodeFec (fn : BitVec 4) : Option Instr :=
  match fn with
  | 0x0#4 => some .fecEncode
  | 0x1#4 => some .fecNew
  | 0x2#4 => some .fecPrime
  | 0x3#4 => some .fecSubmit
  | _ => none

/-- Family 5 of 30_encoding.md R72. -/
def decodeAddressedHeader (fn : BitVec 4) : Option Instr :=
  match fn with
  | 0x0#4 => some .athPack
  | 0x1#4 => some .athUnpack
  | _ => none

/-- Family 6 of 30_encoding.md R72. -/
def decodeClientPacket (fn : BitVec 4) : Option Instr :=
  match fn with
  | 0x0#4 => some .cphPack
  | 0x1#4 => some .cphUnpack
  | 0x2#4 => some .cpPack
  | 0x3#4 => some .cpUnpack
  | _ => none

/-- Family 7 of 30_encoding.md R72. -/
def decodeSpacePacket (fn : BitVec 4) : Option Instr :=
  match fn with
  | 0x0#4 => some .sphPack
  | 0x1#4 => some .sphUnpack
  | 0x2#4 => some .spfPack
  | 0x3#4 => some .spfUnpack
  | 0x4#4 => some .spPack
  | 0x5#4 => some .spUnpack
  | _ => none

/-- The command that a family and a function select; families 8 to 15 select none (30_encoding.md
R71). -/
def selectCommand (fam fn : BitVec 4) : Option Instr :=
  match fam with
  | 0x0#4 => decodeSystem fn
  | 0x1#4 => decodeBitfield fn
  | 0x2#4 => decodeCrc fn
  | 0x3#4 => decodeWhitening fn
  | 0x4#4 => decodeFec fn
  | 0x5#4 => decodeAddressedHeader fn
  | 0x6#4 => decodeClientPacket fn
  | 0x7#4 => decodeSpacePacket fn
  | _ => none

/-- The decoder: every 8-bit value is a command of R72 or is rejected by name (30_encoding.md R70, R74). -/
def decode (op : Byte) : DecodeResult :=
  match selectCommand (famField op) (fnField op) with
  | some i => .instr i
  | none => .illegalOpcode op

/-- The opcode of a command: the column `opcode` of 30_encoding.md R72. -/
def opcode : Instr → Byte
  | .nop => 0x00
  | .xfer => 0x01
  | .clrerr => 0x02
  | .sreset => 0x03
  | .bfPack => 0x10
  | .bfUnpack => 0x11
  | .putU8 => 0x12
  | .putLe16 => 0x13
  | .putBe16 => 0x14
  | .putLe32 => 0x15
  | .putBe32 => 0x16
  | .getU8 => 0x1A
  | .getLe16 => 0x1B
  | .getBe16 => 0x1C
  | .getLe32 => 0x1D
  | .getBe32 => 0x1E
  | .crcInit => 0x20
  | .crcBit => 0x21
  | .crcByte => 0x22
  | .crcRead => 0x23
  | .crcSpan => 0x24
  | .pn9Seed => 0x30
  | .pn9Bit => 0x31
  | .pn9Byte => 0x32
  | .whiten => 0x33
  | .fecEncode => 0x40
  | .fecNew => 0x41
  | .fecPrime => 0x42
  | .fecSubmit => 0x43
  | .athPack => 0x50
  | .athUnpack => 0x51
  | .cphPack => 0x60
  | .cphUnpack => 0x61
  | .cpPack => 0x62
  | .cpUnpack => 0x63
  | .sphPack => 0x70
  | .sphUnpack => 0x71
  | .spfPack => 0x72
  | .spfUnpack => 0x73
  | .spPack => 0x74
  | .spUnpack => 0x75

/-- The encoder: the words of a command, which is always one byte (30_encoding.md R71). -/
def encode (i : Instr) : List Byte := [opcode i]

/-- The `fam` code of a family (30_encoding.md R71). -/
def familyCode : Family → BitVec 4
  | .system => 0
  | .bitfield => 1
  | .crc => 2
  | .whitening => 3
  | .fec => 4
  | .addressedHeader => 5
  | .clientPacket => 6
  | .spacePacket => 7

/-- The instruction the decoder reads from a table word. There is one command length, 8 bits
(30_encoding.md R71), so a longer word, or one with a bit above bit 7, is no command
(DESIGN CHOICE, log entry 16). -/
def decodeTableWord (nbits w : Nat) : Option Instr :=
  if nbits ≤ 8 ∧ w < 256 then
    match decode (BitVec.ofNat 8 w) with
    | .instr i => some i
    | .illegalOpcode _ => none
  else
    none

end Sys2Proof
end

