-- ==== Sys2Proof/Machine/State.lean ====
section
/-! DEFINITION. The state of one block instance and of its host, as plain data, and the state after
reset (10_state.md). -/

namespace Sys2Proof.Machine

/-- The FEC decoder's phase (10_state.md R29). The two-bit value 3 is never written, so it has no
constructor (93_implementation_defined.md U13; log entry 13). -/
inductive FecPhase where
  /-- code 0: constructed, not yet primed -/
  | unprimed
  /-- code 1: primed, no chunk accepted yet -/
  | primedEmpty
  /-- code 2: at least one chunk accepted -/
  | accepting
  deriving DecidableEq, Repr

/-- The error kinds, `STATUS.KIND` codes 1 to 6 (10_state.md R24; 60_exceptions.md R271 to R278). -/
inductive ErrorKind where
  /-- a field value outside its range (60_exceptions.md R271) -/
  | range
  /-- a span of the wrong size (60_exceptions.md R272) -/
  | length
  /-- a length field that disagrees with the span (60_exceptions.md R273) -/
  | integrity
  /-- a stored CRC that disagrees with the computed one (60_exceptions.md R274) -/
  | checksum
  /-- an FEC chunk or decoder command out of step (60_exceptions.md R275) -/
  | desync
  /-- an opcode that selects no command (60_exceptions.md R278) -/
  | illegal
  deriving DecidableEq, Repr

/-- The fields and byte ranges an error names, `STATUS.FIELD` codes 1 to 19 (60_exceptions.md R276). -/
inductive FieldCode where
  | priority | source | destinationAddr | destinationPort | sourcePort | flags | length
  | hardwareId | sequenceNumber | destination | commandNumber | port | crc | inputSpan | value
  | chunk | sequence | outputSpan | opcode
  deriving DecidableEq, Repr

/-- One error: `raise <Kind>(FIELD)` of 00_scope.md R9. -/
structure CmdError where
  kind : ErrorKind
  field : FieldCode
  deriving DecidableEq, Repr

/-- The state of one block instance (the tuple at the head of 10_state.md), with the host's remaining
program beside it so that a step can read it. -/
structure State where
  /-- `A[0..7]` (10_state.md R20) -/
  a : Vector Word 8
  /-- `R[0..7]` (10_state.md R21) -/
  r : Vector Word 8
  /-- `STATUS` (10_state.md R24) -/
  status : BitVec 16
  /-- `CRC_ACC` (10_state.md R27) -/
  crcAcc : BitVec 16
  /-- `PN9_S` (10_state.md R28) -/
  pn9 : BitVec 9
  /-- `FEC_PHASE` (10_state.md R29) -/
  fecPhase : FecPhase
  /-- `FEC_HIST` (10_state.md R30) -/
  fecHist : FecHist
  /-- `IBUF[0..ILEN)`: exactly the bytes that hold a value; `ILEN` is its length (10_state.md R34,
  20_memory.md R51; log entry 10) -/
  ibuf : Span
  /-- `OBUF[0..OLEN)`: exactly the bytes that hold a value; `OLEN` is its length (10_state.md R35,
  20_memory.md R51; log entry 10) -/
  obuf : Span
  /-- host: the actions not yet performed, the program from `cp` on (10_state.md R23; log entry 8) -/
  pending : List HostAction
  /-- host: the command pointer (10_state.md R23) -/
  cp : Nat
  /-- host, the model's own: what the read actions returned, oldest first (10_state.md R39; log
  entry 12) -/
  replies : List HostReply
  /-- the model's own: how many free values have been read (log entry 7) -/
  freeCount : Nat
  deriving DecidableEq, Repr

/-- No command and no host action stops the block: there is no trap (60_exceptions.md R281) and an
error does not halt it (30_encoding.md R76). So this type has no constructor, and no one raises it. -/
inductive Fault
  deriving DecidableEq, Repr

/-- Why a step has no meaning. -/
inductive Refusal where
  /-- Raised by `exec` for a command that has no meaning yet; safe. No arm raises it now. -/
  | notModelled (mnemonic : String)
  /-- Raised by `performAction` for an entry of the host's program that 10_state.md R39 does not admit (an
  index above 7, a value outside `ARG_W` bits, a load longer than `BUF_CAP`): "not actions of the
  model", treatment "refuse" (93_implementation_defined.md U12); safe. -/
  | notAHostAction (action : HostAction)
  deriving DecidableEq, Repr

/-- The machine right after reset (10_state.md R33, 70_reset_and_hazards.md R300). `fecHist` is
unspecified there and gets history number 0 (DESIGN CHOICE, log entry 6). The host has no program and
has read nothing. -/
def State.reset : State where
  a := Vector.replicate 8 0
  r := Vector.replicate 8 0
  status := 0x0000#16
  crcAcc := 0xFFFF#16
  pn9 := 0x1FF#9
  fecPhase := .unprimed
  fecHist := ⟨0⟩
  ibuf := []
  obuf := []
  pending := []
  cp := 0
  replies := []
  freeCount := 0

end Sys2Proof.Machine
end

