-- ==== Sys2Proof/Machine/Flags.lean ====
section
/-! DEFINITION. `STATUS`, the block's only flags: its fields and the ways it is written (10_state.md R24
to R26, 60_exceptions.md R276). -/

namespace Sys2Proof.Machine

/-- `STATUS.KIND`, bits 2:0 (10_state.md R24). -/
def statusKind (w : BitVec 16) : BitVec 3 := w.extractLsb' 0 3

/-- `STATUS.FIELD`, bits 7:3 (10_state.md R24). -/
def statusField (w : BitVec 16) : BitVec 5 := w.extractLsb' 3 5

/-- `STATUS.STICKY`, bit 8 (10_state.md R24). -/
def statusSticky (w : BitVec 16) : BitVec 1 := w.extractLsb' 8 1

/-- The reserved bits 15:9, never written (10_state.md R24). -/
def statusReserved (w : BitVec 16) : BitVec 7 := w.extractLsb' 9 7

/-- A `STATUS` word from its fields, high bits first (10_state.md R24). -/
def statusPack (reserved : BitVec 7) (sticky : BitVec 1) (field : BitVec 5) (kind : BitVec 3) :
    BitVec 16 :=
  reserved ++ sticky ++ field ++ kind

/-- The `KIND` code of an error (10_state.md R24); 0 is OK and 7 is never written. -/
def kindCode : ErrorKind → BitVec 3
  | .range => 1
  | .length => 2
  | .integrity => 3
  | .checksum => 4
  | .desync => 5
  | .illegal => 6

/-- The `FIELD` code of a field or byte range (60_exceptions.md R276); 0 is NONE, 20 to 31 are never
written. -/
def fieldCode : FieldCode → BitVec 5
  | .priority => 1
  | .source => 2
  | .destinationAddr => 3
  | .destinationPort => 4
  | .sourcePort => 5
  | .flags => 6
  | .length => 7
  | .hardwareId => 8
  | .sequenceNumber => 9
  | .destination => 10
  | .commandNumber => 11
  | .port => 12
  | .crc => 13
  | .inputSpan => 14
  | .value => 15
  | .chunk => 16
  | .sequence => 17
  | .outputSpan => 18
  | .opcode => 19

/-- `STATUS` after a success: `KIND` and `FIELD` become 0, `STICKY` keeps its value (10_state.md R25). -/
def statusOk (w : BitVec 16) : BitVec 16 :=
  statusPack (statusReserved w) (statusSticky w) 0 0

/-- `STATUS` after `raise`: the codes of the error, and `STICKY` set (10_state.md R25). -/
def statusRaise (w : BitVec 16) (e : CmdError) : BitVec 16 :=
  statusPack (statusReserved w) 1 (fieldCode e.field) (kindCode e.kind)

/-- `STATUS` as the host reads it: the reserved bits read as 0 (10_state.md R24; log entry 11). -/
def statusRead (w : BitVec 16) : BitVec 16 :=
  statusPack 0 (statusSticky w) (statusField w) (statusKind w)

/-- The two-bit code of a phase (10_state.md R29). -/
def phaseCode : FecPhase → BitVec 2
  | .unprimed => 0
  | .primedEmpty => 1
  | .accepting => 2

end Sys2Proof.Machine
end

