-- ==== Sys2Proof/Machine/Ops.lean ====
section
/-! DEFINITION. The shared operations: memory, registers, the two ways a command ends (success and
error), and reset (00_scope.md R9; 10_state.md R21, R25; 60_exceptions.md R277, R280). -/

namespace Sys2Proof.Machine

/-! ### Buffers (10_state.md R34 to R36, 20_memory.md R50, R51) -/

/-- The capacity rule: each buffer holds at most `BUF_CAP` bytes (10_state.md R34, R35). A buffer is the
list of exactly the bytes that hold a value, so two equal buffers are equal data. -/
def Memory.wf (s : State) : Bool :=
  decide (s.ibuf.length ≤ Config.bufCap) && decide (s.obuf.length ≤ Config.bufCap)

/-- A span as cells of (index, byte), indices strictly rising from 0 (20_memory.md R50). -/
def spanCells (B : Span) : List Host.Cell := B.zipIdx.map fun c => (c.2, c.1)

/-- One byte of a buffer; an index at or above the length holds no value (20_memory.md R51). -/
def readByte (B : Span) (i : Nat) : Option Byte := B[i]?

/-- `ILEN` (10_state.md R34). -/
def State.ilen (s : State) : Nat := s.ibuf.length

/-- `OLEN` (10_state.md R35). -/
def State.olen (s : State) : Nat := s.obuf.length

/-- `MemRead(IBUF, off, n)`, the span `B[off..off+n)` (00_scope.md R9); used only with
`off + n <= ILEN`. -/
def memRead (B : Span) (off n : Nat) : Span := (B.drop off).take n

/-- `MemWrite(OBUF, B)`: the whole output span is replaced (00_scope.md R9, 20_memory.md R50). -/
def State.memWrite (s : State) (B : Span) : State := { s with obuf := B }

/-- `IBUF[0..len(B)) <- B; ILEN <- len(B)`: XFER and the host's `load` (10_state.md R34). -/
def State.loadSpan (s : State) (B : Span) : State := { s with ibuf := B }

/-! ### Registers (10_state.md R20, R21) -/

/-- `A[i] <- v`, the host's action `seta` (10_state.md R39). -/
def State.setA (s : State) (i : Fin 8) (v : Word) : State := { s with a := s.a.set i v }

/-- `R[i] <- v` (10_state.md R21). -/
def State.setR (s : State) (i : Fin 8) (v : Word) : State := { s with r := s.r.set i v }

/-- An unsigned value as a register word: results are written zero-extended (30_encoding.md R73). -/
def wordOfNat (n : Nat) : Word := BitVec.ofNat 64 n

/-! ### How a command ends -/

/-- A success: `STATUS` as 10_state.md R25 says. -/
def State.succeed (s : State) : State := { s with status := statusOk s.status }

/-- `raise <Kind>(FIELD)`, taking an error: `STATUS` is written and nothing else. Nothing is saved and
control goes nowhere (60_exceptions.md R270, R280, R281), so there is nothing to return from (R282). -/
def State.raise (s : State) (e : CmdError) : State := { s with status := statusRaise s.status e }

/-- One check of a command: whether it holds and the error it raises where it does not. -/
structure Check where
  holds : Bool
  error : CmdError
  deriving DecidableEq, Repr

/-- The first check that fails, in the listed order (60_exceptions.md R277). -/
def firstError : List Check → Option CmdError
  | [] => none
  | c :: cs => if c.holds then firstError cs else some c.error

/-- The state after a command that computed `result`: `STATUS` is written once, as its last act
(10_state.md R25); a failing command leaves everything else as it was (60_exceptions.md R280). -/
def State.finish (s : State) (result : Except CmdError State) : State :=
  match result with
  | .ok t => t.succeed
  | .error e => s.raise e

/-- A command with its checks in order and its effect where all hold (00_scope.md R11). -/
def State.command (s : State) (checks : List Check) (effect : State → State) : State :=
  s.finish <|
    match firstError checks with
    | some e => .error e
    | none => .ok (effect s)

/-- An opcode that selects no command: `raise Illegal(OPCODE)` (30_encoding.md R74). -/
def State.illegalOpcode (s : State) : State := s.raise ⟨.illegal, .opcode⟩

/-! ### Reset -/

/-- The reset event (70_reset_and_hazards.md R300): every register of the block takes its reset value;
`FEC_HIST` becomes unspecified, a free value (47_system.md R253; log entry 7). The host's program, `cp`
and replies are not the block's (10_state.md R38). -/
def State.resetBlock (s : State) : State :=
  { State.reset with
    fecHist := Config.freeFecHist s.freeCount
    freeCount := s.freeCount + 1
    pending := s.pending
    cp := s.cp
    replies := s.replies }

end Sys2Proof.Machine
end

