-- ==== Sys2Proof/Machine/Operands.lean ====
section
/-! DEFINITION. Operand forms: scalars in argument registers, fields of the input span, the checks on
them, byte order and the bitfield codec (30_encoding.md R71, R73; 00_scope.md R9;
40_bitfield_byteorder.md R100, R101, R105). -/

namespace Sys2Proof.Machine

/-! ### Scalars -/

/-- The operand `A[i]` as a mathematical integer (30_encoding.md R73). -/
def State.arg (s : State) (i : Fin 8) : Int := (s.a[i]).toInt

/-- The low `w` bits `A[i][w-1:0]`, which is all of a value that passed its range check
(30_encoding.md R73). -/
def State.argBits (s : State) (w : Nat) (i : Fin 8) : BitVec w := (s.a[i]).setWidth w

/-- `v` lies in `lo .. hi`, else Range(field) (60_exceptions.md R271). -/
def rangeCheck (v lo hi : Int) (field : FieldCode) : Check :=
  ⟨decide (lo ≤ v) && decide (v ≤ hi), ⟨.range, field⟩⟩

/-! ### The input span -/

/-- `B[i]` as an integer. A command reads a byte only below the length of the span it has checked; the 0
beyond it never reaches a result (20_memory.md R51; log entry 17). -/
def byteAt (B : Span) (i : Nat) : Nat := (B.getD i 0).toNat

/-- The input span has exactly `n` bytes, else Length(INPUT_SPAN) (60_exceptions.md R272). -/
def sizeIs (B : Span) (n : Nat) : Check := ⟨decide (B.length = n), ⟨.length, .inputSpan⟩⟩

/-- The input span has at least `n` bytes, else Length(INPUT_SPAN) (60_exceptions.md R272). -/
def sizeAtLeast (B : Span) (n : Nat) : Check := ⟨decide (n ≤ B.length), ⟨.length, .inputSpan⟩⟩

/-! ### Byte order (00_scope.md R9; 20_memory.md R52 to R55) -/

/-- `le16(v)` -/
def le16 (v : BitVec 16) : Span := [v.extractLsb' 0 8, v.extractLsb' 8 8]

/-- `be16(v)` -/
def be16 (v : BitVec 16) : Span := [v.extractLsb' 8 8, v.extractLsb' 0 8]

/-- `le32(v)` -/
def le32 (v : BitVec 32) : Span :=
  [v.extractLsb' 0 8, v.extractLsb' 8 8, v.extractLsb' 16 8, v.extractLsb' 24 8]

/-- `be32(v)` -/
def be32 (v : BitVec 32) : Span :=
  [v.extractLsb' 24 8, v.extractLsb' 16 8, v.extractLsb' 8 8, v.extractLsb' 0 8]

/-- `from_le16` of the two bytes at `off` -/
def le16At (B : Span) (off : Nat) : Nat := byteAt B off + 256 * byteAt B (off + 1)

/-- `from_be16` of the two bytes at `off` -/
def be16At (B : Span) (off : Nat) : Nat := 256 * byteAt B off + byteAt B (off + 1)

/-- `from_le32` of the four bytes at `off` -/
def le32At (B : Span) (off : Nat) : Nat :=
  byteAt B off + 2 ^ 8 * byteAt B (off + 1) + 2 ^ 16 * byteAt B (off + 2)
    + 2 ^ 24 * byteAt B (off + 3)

/-- `from_be32` of the four bytes at `off` -/
def be32At (B : Span) (off : Nat) : Nat :=
  2 ^ 24 * byteAt B off + 2 ^ 16 * byteAt B (off + 1) + 2 ^ 8 * byteAt B (off + 2)
    + byteAt B (off + 3)

/-! ### The bitfield codec -/

/-- The loop of `bf_pack` from a cursor and an accumulator (40_bitfield_byteorder.md R100). -/
def bfPackFrom (W : Nat) : Nat → BitVec W → List Nat → List (BitVec W) → BitVec W
  | cursor, acc, width :: widths, value :: values =>
    bfPackFrom W (cursor + width) (acc ||| (value <<< (W - cursor - width))) widths values
  | _, acc, _, _ => acc

/-- `bf_pack(W, widths, values)` (40_bitfield_byteorder.md R100). -/
def bfPack (W : Nat) (widths : List Nat) (values : List (BitVec W)) : BitVec W :=
  bfPackFrom W 0 0 widths values

/-- The loop of `bf_unpack` from a running offset (40_bitfield_byteorder.md R101). -/
def bfUnpackFrom (W : Nat) : Nat → List Nat → BitVec W → List (BitVec W)
  | offset, width :: widths, word =>
    ((word <<< offset) >>> (W - width)) :: bfUnpackFrom W (offset + width) widths word
  | _, [], _ => []

/-- `bf_unpack(W, widths, word)` (40_bitfield_byteorder.md R101). -/
def bfUnpack (W : Nat) (widths : List Nat) (word : BitVec W) : List (BitVec W) :=
  bfUnpackFrom W 0 widths word

/-! ### Results -/

/-- A register file after consecutive registers from `first` take the listed values (10_state.md R22). -/
def writeFrom : Nat → List Word → Vector Word 8 → Vector Word 8
  | _, [], r => r
  | first, v :: vs, r => writeFrom (first + 1) vs (r.setIfInBounds first v)

/-- `R[first], R[first+1], ...` take the listed values; the others keep theirs (10_state.md R21, R22). -/
def State.setResults (s : State) (first : Nat) (vs : List Word) : State :=
  { s with r := writeFrom first vs s.r }

end Sys2Proof.Machine
end

