-- ==== Sys2Proof/Machine/Bitfield.lean ====
section
/-! DEFINITION. The Bitfield Codec and the Byte-Order Helpers (40_bitfield_byteorder.md). -/

namespace Sys2Proof.Machine

/-! ### Bitfield codec -/

/-- The checks on the five fields that BF.PACK and ATH.PACK share, in declared order
(40_bitfield_byteorder.md R102, 44_addressed_header.md R192). -/
def addressFieldChecks (s : State) : List Check :=
  [rangeCheck (s.arg 0) 0 3 .priority, rangeCheck (s.arg 1) 0 31 .source,
    rangeCheck (s.arg 2) 0 31 .destinationAddr, rangeCheck (s.arg 3) 0 63 .destinationPort,
    rangeCheck (s.arg 4) 0 63 .sourcePort]

/-- `BF_W`-bit words of `A[0]` to `A[4]`, the five fields in declared order. -/
def addressFields (s : State) : List (BitVec 32) :=
  [s.argBits 32 0, s.argBits 32 1, s.argBits 32 2, s.argBits 32 3, s.argBits 32 4]

/-- BF.PACK (40_bitfield_byteorder.md R102): six checked fields to `R[6]`. -/
def execBfPack (s : State) : Host.Outcome State Fault Refusal :=
  .next <| s.command (addressFieldChecks s ++ [rangeCheck (s.arg 5) 0 255 .flags]) fun s =>
    s.setR 6 ((bfPack 32 Config.bfLayout (addressFields s ++ [s.argBits 32 5])).setWidth 64)

/-- BF.UNPACK (40_bitfield_byteorder.md R103): the word in `A[6]` to `R[0..5]`. -/
def execBfUnpack (s : State) : Host.Outcome State Fault Refusal :=
  .next <| s.command [rangeCheck (s.arg 6) 0 4294967295 .value] fun s =>
    s.setResults 0 ((bfUnpack 32 Config.bfLayout (s.argBits 32 6)).map (·.setWidth 64))

/-! ### Byte-order helpers (40_bitfield_byteorder.md R105) -/

/-- A PUT helper: `A[0]` is checked against `0 .. top` and the bytes become the output span. -/
def putValue (s : State) (top : Int) (bytes : Span) : State :=
  s.command [rangeCheck (s.arg 0) 0 top .value] fun s => s.memWrite bytes

/-- A GET helper: the input span must have exactly `size` bytes, and the integer goes to `R[0]`. -/
def getValue (s : State) (size : Nat) (value : Nat) : State :=
  s.command [sizeIs s.ibuf size] fun s => s.setR 0 (wordOfNat value)

/-- PUT.U8 (40_bitfield_byteorder.md R106). -/
def execPutU8 (s : State) : Host.Outcome State Fault Refusal :=
  .next (putValue s 255 [s.argBits 8 0])

/-- PUT.LE16 (40_bitfield_byteorder.md R107). -/
def execPutLe16 (s : State) : Host.Outcome State Fault Refusal :=
  .next (putValue s 65535 (le16 (s.argBits 16 0)))

/-- PUT.BE16 (40_bitfield_byteorder.md R108). -/
def execPutBe16 (s : State) : Host.Outcome State Fault Refusal :=
  .next (putValue s 65535 (be16 (s.argBits 16 0)))

/-- PUT.LE32 (40_bitfield_byteorder.md R109). -/
def execPutLe32 (s : State) : Host.Outcome State Fault Refusal :=
  .next (putValue s 4294967295 (le32 (s.argBits 32 0)))

/-- PUT.BE32 (40_bitfield_byteorder.md R110). -/
def execPutBe32 (s : State) : Host.Outcome State Fault Refusal :=
  .next (putValue s 4294967295 (be32 (s.argBits 32 0)))

/-- GET.U8 (40_bitfield_byteorder.md R111). -/
def execGetU8 (s : State) : Host.Outcome State Fault Refusal :=
  .next (getValue s 1 (byteAt s.ibuf 0))

/-- GET.LE16 (40_bitfield_byteorder.md R112). -/
def execGetLe16 (s : State) : Host.Outcome State Fault Refusal :=
  .next (getValue s 2 (le16At s.ibuf 0))

/-- GET.BE16 (40_bitfield_byteorder.md R113). -/
def execGetBe16 (s : State) : Host.Outcome State Fault Refusal :=
  .next (getValue s 2 (be16At s.ibuf 0))

/-- GET.LE32 (40_bitfield_byteorder.md R114). -/
def execGetLe32 (s : State) : Host.Outcome State Fault Refusal :=
  .next (getValue s 4 (le32At s.ibuf 0))

/-- GET.BE32 (40_bitfield_byteorder.md R115). -/
def execGetBe32 (s : State) : Host.Outcome State Fault Refusal :=
  .next (getValue s 4 (be32At s.ibuf 0))

end Sys2Proof.Machine
end

