-- ==== Sys2Proof/Machine/AddressedHeader.lean ====
section
/-! DEFINITION. The Addressed-Transport Header Codec (44_addressed_header.md). -/

namespace Sys2Proof.Machine

/-- ATH.PACK (44_addressed_header.md R192): five checked fields and flags 0, big-endian. -/
def execAthPack (s : State) : Host.Outcome State Fault Refusal :=
  .next <| s.command (addressFieldChecks s) fun s =>
    s.memWrite (be32 (bfPack 32 Config.bfLayout (addressFields s ++ [0])))

/-- ATH.UNPACK (44_addressed_header.md R193): the flags field is unpacked and discarded. -/
def execAthUnpack (s : State) : Host.Outcome State Fault Refusal :=
  .next <| s.command [sizeIs s.ibuf Config.athLen] fun s =>
    s.setResults 0
      (((bfUnpack 32 Config.bfLayout (BitVec.ofNat 32 (be32At s.ibuf 0))).take 5).map
        (·.setWidth 64))

end Sys2Proof.Machine
end

