-- ==== Sys2Proof/Machine/ClientPacket.lean ====
section
/-! DEFINITION. The Client Packet Codec (45_client_packet.md). -/

namespace Sys2Proof.Machine

/-- The checks on `A[1]` to `A[4]` that CPH.PACK and CP.PACK share, in wire order (45_client_packet.md
R202, R204). -/
def clientFieldChecks (s : State) : List Check :=
  [rangeCheck (s.arg 1) 0 65535 .hardwareId, rangeCheck (s.arg 2) 0 65535 .sequenceNumber,
    rangeCheck (s.arg 3) 0 255 .destination, rangeCheck (s.arg 4) 0 255 .commandNumber]

/-- A length value lies in the client header's range 6 to 251 (45_client_packet.md R200). -/
def clientLengthCheck (v : Int) : Check := rangeCheck v Config.cpLenMin Config.cpLenMax .length

/-- The 7 header bytes for a length byte and the fields in `A[1]` to `A[4]` (45_client_packet.md R200). -/
def clientHeader (s : State) (length : Byte) : Span :=
  [length] ++ le16 (s.argBits 16 1) ++ le16 (s.argBits 16 2) ++ [s.argBits 8 3, s.argBits 8 4]

/-- The five header fields of a client frame, in wire order (45_client_packet.md R203, R205). -/
def clientFields (B : Span) : List Word :=
  [wordOfNat (byteAt B 0), wordOfNat (le16At B 1), wordOfNat (le16At B 3), wordOfNat (byteAt B 5),
    wordOfNat (byteAt B 6)]

/-- The client packet's length field for a payload of `n` bytes (45_client_packet.md R201). -/
def clientLength (n : Nat) : Nat := Config.cpHdrLen + n - 1

/-- CPH.PACK (45_client_packet.md R202): the length is taken as given. -/
def execCphPack (s : State) : Host.Outcome State Fault Refusal :=
  .next <| s.command (clientLengthCheck (s.arg 0) :: clientFieldChecks s) fun s =>
    s.memWrite (clientHeader s (s.argBits 8 0))

/-- CPH.UNPACK (45_client_packet.md R203). -/
def execCphUnpack (s : State) : Host.Outcome State Fault Refusal :=
  .next <| s.command
    [sizeIs s.ibuf Config.cpHdrLen, clientLengthCheck (byteAt s.ibuf 0)] fun s =>
    s.setResults 0 (clientFields s.ibuf)

/-- CP.PACK (45_client_packet.md R204): the length is computed, `A[0]` is ignored. -/
def execCpPack (s : State) : Host.Outcome State Fault Refusal :=
  .next <| s.command (clientLengthCheck (clientLength s.ilen) :: clientFieldChecks s) fun s =>
    (s.memWrite (clientHeader s (BitVec.ofNat 8 (clientLength s.ilen)) ++ s.ibuf)).setR 0
      (wordOfNat (clientLength s.ilen))

/-- CP.UNPACK (45_client_packet.md R205): Length, then Range, then Integrity. -/
def execCpUnpack (s : State) : Host.Outcome State Fault Refusal :=
  .next <| s.command
    [sizeAtLeast s.ibuf Config.cpHdrLen, clientLengthCheck (byteAt s.ibuf 0),
      ⟨decide (byteAt s.ibuf 0 = clientLength (s.ilen - Config.cpHdrLen)),
        ⟨.integrity, .length⟩⟩] fun s =>
    (s.setResults 0 (clientFields s.ibuf)).memWrite
      (memRead s.ibuf Config.cpHdrLen (s.ilen - Config.cpHdrLen))

end Sys2Proof.Machine
end

