-- ==== Sys2Proof/Machine/Crc.lean ====
section
/-! DEFINITION. The CRC16 Engine (41_crc16.md): polynomial 0x8005, seed 0xFFFF, most significant bit
first, no reflection, no final exclusive-or. -/

namespace Sys2Proof.Machine

/-- The per-bit step `crc_bit(acc, d)` (41_crc16.md R132). -/
def crcBitStep (acc : BitVec 16) (d : Bool) : BitVec 16 :=
  if acc.msb ^^ d then (acc <<< 1) ^^^ Config.crcPoly else acc <<< 1

/-- The first `n` bits of a working byte, most significant first, shifted out to the left
(41_crc16.md R131). -/
def crcBits : Nat → BitVec 16 → Byte → BitVec 16
  | 0, acc, _ => acc
  | n + 1, acc, wb => crcBits n (crcBitStep acc wb.msb) (wb <<< 1)

/-- `crc_byte(acc, b)` (41_crc16.md R131). -/
def crcByteStep (acc : BitVec 16) (b : Byte) : BitVec 16 := crcBits 8 acc b

/-- The CRC of a span continued from an accumulator. -/
def crcFrom (acc : BitVec 16) (B : Span) : BitVec 16 := B.foldl crcByteStep acc

/-- `crc16(B)` (41_crc16.md R131). -/
def crc16 (B : Span) : BitVec 16 := crcFrom Config.crcSeed B

/-- `crc_wire(c)`, low byte first (41_crc16.md R140, 20_memory.md R55). -/
def crcWire (c : BitVec 16) : Span := le16 c

/-- CRC.INIT (41_crc16.md R134). -/
def execCrcInit (s : State) : Host.Outcome State Fault Refusal :=
  .next <| s.command [] fun s => { s with crcAcc := Config.crcSeed }

/-- CRC.BIT (41_crc16.md R135). -/
def execCrcBit (s : State) : Host.Outcome State Fault Refusal :=
  .next <| s.command [rangeCheck (s.arg 0) 0 1 .value] fun s =>
    { s with crcAcc := crcBitStep s.crcAcc (s.argBits 1 0).msb }

/-- CRC.BYTE (41_crc16.md R136): the accumulator is not re-seeded. -/
def execCrcByte (s : State) : Host.Outcome State Fault Refusal :=
  .next <| s.command [rangeCheck (s.arg 0) 0 255 .value] fun s =>
    { s with crcAcc := crcByteStep s.crcAcc (s.argBits 8 0) }

/-- CRC.READ (41_crc16.md R137): `CRC_ACC` is not changed. -/
def execCrcRead (s : State) : Host.Outcome State Fault Refusal :=
  .next <| s.command [] fun s => (s.setR 0 (s.crcAcc.setWidth 64)).memWrite (crcWire s.crcAcc)

/-- CRC.SPAN (41_crc16.md R138): starts from the seed whatever `CRC_ACC` held. -/
def execCrcSpan (s : State) : Host.Outcome State Fault Refusal :=
  .next <| s.command [] fun s =>
    { (s.setR 0 ((crc16 s.ibuf).setWidth 64)).memWrite (crcWire (crc16 s.ibuf)) with
      crcAcc := crc16 s.ibuf }

end Sys2Proof.Machine
end

