-- ==== Sys2Proof/Machine/Fec.lean ====
section
/-! DEFINITION. The FEC Codec (43_fec.md), for any code: the machine's own code is the open parameter
`Config.fecCode`. -/

namespace Sys2Proof.Machine

/-- FEC.ENCODE for a given code (43_fec.md R173). -/
def fecEncodeWith (code : FecCode) (s : State) : State :=
  s.command
    [⟨decide (Config.fecGroup * s.ilen ≤ Config.bufCap), ⟨.length, .outputSpan⟩⟩]
    fun s => s.memWrite (code.encode s.ibuf).toList

/-- FEC.PRIME for a given code (43_fec.md R176). -/
def fecPrimeWith (code : FecCode) (s : State) : State :=
  s.command [⟨decide (s.fecPhase = .unprimed), ⟨.desync, .sequence⟩⟩] fun s =>
    { s.memWrite [] with fecHist := code.hist0, fecPhase := .primedEmpty }

/-- FEC.SUBMIT for a given code (43_fec.md R177): the phase check, the chunk size, then the code. On an
error the history is not advanced. -/
def fecSubmitWith (code : FecCode) (s : State) : State :=
  s.finish <|
    match firstError
      [⟨decide (s.fecPhase ≠ .unprimed), ⟨.desync, .sequence⟩⟩,
        ⟨decide (s.ilen = Config.fecGroup), ⟨.desync, .chunk⟩⟩] with
    | some e => .error e
    | none =>
      match code.step s.fecHist s.ibuf with
      | none => .error ⟨.desync, .chunk⟩
      | some (h, out) =>
        .ok { s.memWrite out.1 with fecHist := h, fecPhase := .accepting }

/-- FEC.ENCODE (43_fec.md R173). -/
def execFecEncode (s : State) : Host.Outcome State Fault Refusal :=
  .next (fecEncodeWith Config.fecCode s)

/-- FEC.NEW (43_fec.md R175): `FEC_HIST` keeps its value, which nothing can read before FEC.PRIME
rewrites it (log entry 14). -/
def execFecNew (s : State) : Host.Outcome State Fault Refusal :=
  .next <| s.command [] fun s => { s with fecPhase := .unprimed }

/-- FEC.PRIME (43_fec.md R176). -/
def execFecPrime (s : State) : Host.Outcome State Fault Refusal :=
  .next (fecPrimeWith Config.fecCode s)

/-- FEC.SUBMIT (43_fec.md R177). -/
def execFecSubmit (s : State) : Host.Outcome State Fault Refusal :=
  .next (fecSubmitWith Config.fecCode s)

end Sys2Proof.Machine
end

