-- ==== Sys2Proof/Machine/SpacePacket.lean ====
section
/-! DEFINITION. The Space Packet Codec (46_space_packet.md). -/

namespace Sys2Proof.Machine

/-- The checks on `A[1]` to `A[4]` that SPH.PACK and SP.PACK share, in wire order (46_space_packet.md
R222, R228). -/
def spaceFieldChecks (s : State) : List Check :=
  [rangeCheck (s.arg 1) 0 1 .port, rangeCheck (s.arg 2) 0 65535 .sequenceNumber,
    rangeCheck (s.arg 3) 0 255 .destination, rangeCheck (s.arg 4) 0 255 .commandNumber]

/-- A length value lies in the space header's range 10 to 251 (46_space_packet.md R220). -/
def spaceLengthCheck (v : Int) : Check := rangeCheck v Config.spLenMin Config.spLenMax .length

/-- The 6 header bytes for a length byte and the fields in `A[1]` to `A[4]` (46_space_packet.md R220). -/
def spaceHeader (s : State) (length : Byte) : Span :=
  [length, s.argBits 8 1] ++ le16 (s.argBits 16 2) ++ [s.argBits 8 3, s.argBits 8 4]

/-- The 4 footer bytes: hardware_id, then the CRC low byte first (46_space_packet.md R224). -/
def spaceFooter (hardwareId crc : BitVec 16) : Span := le16 hardwareId ++ crcWire crc

/-- The five header fields of a space frame, in wire order (46_space_packet.md R223, R230). -/
def spaceFields (B : Span) : List Word :=
  [wordOfNat (byteAt B 0), wordOfNat (byteAt B 1), wordOfNat (le16At B 2), wordOfNat (byteAt B 4),
    wordOfNat (byteAt B 5)]

/-- The space packet's length field for a payload of `n` bytes (46_space_packet.md R221). -/
def spaceLength (n : Nat) : Nat := Config.spHdrLen + n + Config.spFtrLen

/-- The span the CRC of a whole frame covers: all but the footer (46_space_packet.md R225). -/
def crcCoverage (frame : Span) : Span := memRead frame 0 (frame.length - Config.spFtrLen)

/-- The CRC stored in the last two bytes of a frame, low byte first (46_space_packet.md R230). -/
def storedCrc (frame : Span) : Nat := le16At frame (frame.length - 2)

/-- SPH.PACK (46_space_packet.md R222): the length is taken as given. -/
def execSphPack (s : State) : Host.Outcome State Fault Refusal :=
  .next <| s.command (spaceLengthCheck (s.arg 0) :: spaceFieldChecks s) fun s =>
    s.memWrite (spaceHeader s (s.argBits 8 0))

/-- SPH.UNPACK (46_space_packet.md R223). -/
def execSphUnpack (s : State) : Host.Outcome State Fault Refusal :=
  .next <| s.command
    [sizeIs s.ibuf Config.spHdrLen, spaceLengthCheck (byteAt s.ibuf 0),
      rangeCheck (byteAt s.ibuf 1) 0 1 .port] fun s =>
    s.setResults 0 (spaceFields s.ibuf)

/-- SPF.PACK (46_space_packet.md R226): a footer value; no CRC is computed. -/
def execSpfPack (s : State) : Host.Outcome State Fault Refusal :=
  .next <| s.command
    [rangeCheck (s.arg 5) 0 65535 .hardwareId, rangeCheck (s.arg 6) 0 65535 .crc] fun s =>
    s.memWrite (spaceFooter (s.argBits 16 5) (s.argBits 16 6))

/-- SPF.UNPACK (46_space_packet.md R227): nothing is verified. -/
def execSpfUnpack (s : State) : Host.Outcome State Fault Refusal :=
  .next <| s.command [sizeIs s.ibuf Config.spFtrLen] fun s =>
    s.setResults 5 [wordOfNat (le16At s.ibuf 0), wordOfNat (le16At s.ibuf 2)]

/-- SP.PACK (46_space_packet.md R228): length and CRC are computed, `A[0]` and `A[6]` are ignored; the
length byte is in place before the CRC is taken (R229). -/
def execSpPack (s : State) : Host.Outcome State Fault Refusal :=
  .next <| s.command
    (spaceLengthCheck (spaceLength s.ilen) :: spaceFieldChecks s
      ++ [rangeCheck (s.arg 5) 0 65535 .hardwareId]) fun s =>
    let header := spaceHeader s (BitVec.ofNat 8 (spaceLength s.ilen))
    let crc := crc16 (header ++ s.ibuf)
    { ((s.memWrite (header ++ s.ibuf ++ spaceFooter (s.argBits 16 5) crc)).setR 0
        (wordOfNat (spaceLength s.ilen))).setR 6 (crc.setWidth 64) with crcAcc := crc }

/-- SP.UNPACK (46_space_packet.md R230): Length, Range, Integrity, Checksum. -/
def execSpUnpack (s : State) : Host.Outcome State Fault Refusal :=
  .next <| s.command
    [sizeAtLeast s.ibuf (Config.spHdrLen + Config.spFtrLen),
      spaceLengthCheck (byteAt s.ibuf 0), rangeCheck (byteAt s.ibuf 1) 0 1 .port,
      ⟨decide (byteAt s.ibuf 0 = s.ilen), ⟨.integrity, .length⟩⟩,
      ⟨decide (storedCrc s.ibuf = (crc16 (crcCoverage s.ibuf)).toNat), ⟨.checksum, .crc⟩⟩] fun s =>
    { (s.setResults 0
        (spaceFields s.ibuf
          ++ [wordOfNat (le16At s.ibuf (s.ilen - 4)), wordOfNat (storedCrc s.ibuf)])).memWrite
        (memRead s.ibuf Config.spHdrLen (s.ilen - (Config.spHdrLen + Config.spFtrLen))) with
      crcAcc := crc16 (crcCoverage s.ibuf) }

end Sys2Proof.Machine
end

