-- ==== Sys2Proof/Machine/System.lean ====
section
/-! DEFINITION. The system commands NOP, XFER, CLRERR, SRESET (47_system.md R250 to R254). None of them
fails. -/

namespace Sys2Proof.Machine

/-- NOP (47_system.md R250): only `STATUS` is written. -/
def execNop (s : State) : Host.Outcome State Fault Refusal :=
  .next (s.command [] fun s => s)

/-- XFER (47_system.md R251): the output span is copied into the input buffer. -/
def execXfer (s : State) : Host.Outcome State Fault Refusal :=
  .next (s.command [] fun s => s.loadSpan s.obuf)

/-- CLRERR (47_system.md R252): the whole of `STATUS` becomes 0. -/
def execClrerr (s : State) : Host.Outcome State Fault Refusal :=
  .next { s with status := 0x0000#16 }

/-- SRESET (47_system.md R253): the reset event as a command; `STATUS` is 0 afterwards. -/
def execSreset (s : State) : Host.Outcome State Fault Refusal :=
  .next s.resetBlock

end Sys2Proof.Machine
end

