-- ==== Sys2Proof/Machine/Whitening.lean ====
section
/-! DEFINITION. The Whitening Engine, PN9 (42_whitening.md). -/

namespace Sys2Proof.Machine

/-- One bit-advance `pn9_step(S)`: taps 8 and 3, left shift, top bit out (42_whitening.md R151). -/
def pn9Step (S : BitVec 9) : BitVec 9 × Bool :=
  ((S <<< 1) ||| (BitVec.ofBool (S.getLsbD 8 ^^ S.getLsbD 3)).setWidth 9, S.getLsbD 8)

/-- The first `n` bit-advances, the `j`-th emitted bit at bit `j` of the byte (42_whitening.md R152). -/
def pn9Bits : Nat → BitVec 9 → BitVec 9 × Byte
  | 0, S => (S, 0)
  | n + 1, S =>
    let (S', k) := pn9Bits n S
    let (S'', out) := pn9Step S'
    (S'', k ||| ((BitVec.ofBool out).setWidth 8 <<< n))

/-- One keystream byte `pn9_byte(S)`, first bit at bit 0 (42_whitening.md R152). -/
def pn9ByteStep (S : BitVec 9) : BitVec 9 × Byte := pn9Bits 8 S

/-- The register after `n` keystream bytes from `S`. -/
def pn9After : Nat → BitVec 9 → BitVec 9
  | 0, S => S
  | n + 1, S => pn9After n (pn9ByteStep S).1

/-- The first `n` keystream bytes from `S`. -/
def pn9KeyFrom : Nat → BitVec 9 → Span
  | 0, _ => []
  | n + 1, S => (pn9ByteStep S).2 :: pn9KeyFrom n (pn9ByteStep S).1

/-- `pn9_key(n)`, from the seed (42_whitening.md R153). -/
def pn9Key (n : Nat) : Span := pn9KeyFrom n Config.pn9Seed

/-- The loop of WHITEN from a register: the register after it and the output (42_whitening.md R161). -/
def whitenFrom : BitVec 9 → Span → BitVec 9 × Span
  | S, [] => (S, [])
  | S, b :: B =>
    let (S', k) := pn9ByteStep S
    let (S'', out) := whitenFrom S' B
    (S'', (b ^^^ k) :: out)

/-- `whiten(B)`, from a fresh generator (42_whitening.md R156). -/
def whitenSpan (B : Span) : Span := (whitenFrom Config.pn9Seed B).2

/-- PN9.SEED (42_whitening.md R158). -/
def execPn9Seed (s : State) : Host.Outcome State Fault Refusal :=
  .next <| s.command [] fun s => { s with pn9 := Config.pn9Seed }

/-- PN9.BIT (42_whitening.md R159). -/
def execPn9Bit (s : State) : Host.Outcome State Fault Refusal :=
  .next <| s.command [] fun s =>
    { s.setR 0 ((BitVec.ofBool (pn9Step s.pn9).2).setWidth 64) with pn9 := (pn9Step s.pn9).1 }

/-- PN9.BYTE (42_whitening.md R160). -/
def execPn9Byte (s : State) : Host.Outcome State Fault Refusal :=
  .next <| s.command [] fun s =>
    { s.setR 0 ((pn9ByteStep s.pn9).2.setWidth 64) with pn9 := (pn9ByteStep s.pn9).1 }

/-- WHITEN (42_whitening.md R161): re-seeds, and leaves the register where the loop ends. -/
def execWhiten (s : State) : Host.Outcome State Fault Refusal :=
  .next <| s.command [] fun s =>
    { s.memWrite (whitenSpan s.ibuf) with pn9 := (whitenFrom Config.pn9Seed s.ibuf).1 }

end Sys2Proof.Machine
end

