-- ==== Sys2Proof/Machine/Dispatch.lean ====
section
/-! DEFINITION. The meaning of every command, one arm per row of the opcode map (30_encoding.md R72). -/

namespace Sys2Proof.Machine

/-- The block executes one command atomically (30_encoding.md R70, 20_memory.md R57). -/
def exec (i : Instr) (s : State) : Host.Outcome State Fault Refusal :=
  match i with
  | .nop => Sys2Proof.Machine.execNop s
  | .xfer => Sys2Proof.Machine.execXfer s
  | .clrerr => Sys2Proof.Machine.execClrerr s
  | .sreset => Sys2Proof.Machine.execSreset s
  | .bfPack => Sys2Proof.Machine.execBfPack s
  | .bfUnpack => Sys2Proof.Machine.execBfUnpack s
  | .putU8 => Sys2Proof.Machine.execPutU8 s
  | .putLe16 => Sys2Proof.Machine.execPutLe16 s
  | .putBe16 => Sys2Proof.Machine.execPutBe16 s
  | .putLe32 => Sys2Proof.Machine.execPutLe32 s
  | .putBe32 => Sys2Proof.Machine.execPutBe32 s
  | .getU8 => Sys2Proof.Machine.execGetU8 s
  | .getLe16 => Sys2Proof.Machine.execGetLe16 s
  | .getBe16 => Sys2Proof.Machine.execGetBe16 s
  | .getLe32 => Sys2Proof.Machine.execGetLe32 s
  | .getBe32 => Sys2Proof.Machine.execGetBe32 s
  | .crcInit => Sys2Proof.Machine.execCrcInit s
  | .crcBit => Sys2Proof.Machine.execCrcBit s
  | .crcByte => Sys2Proof.Machine.execCrcByte s
  | .crcRead => Sys2Proof.Machine.execCrcRead s
  | .crcSpan => Sys2Proof.Machine.execCrcSpan s
  | .pn9Seed => Sys2Proof.Machine.execPn9Seed s
  | .pn9Bit => Sys2Proof.Machine.execPn9Bit s
  | .pn9Byte => Sys2Proof.Machine.execPn9Byte s
  | .whiten => Sys2Proof.Machine.execWhiten s
  | .fecEncode => Sys2Proof.Machine.execFecEncode s
  | .fecNew => Sys2Proof.Machine.execFecNew s
  | .fecPrime => Sys2Proof.Machine.execFecPrime s
  | .fecSubmit => Sys2Proof.Machine.execFecSubmit s
  | .athPack => Sys2Proof.Machine.execAthPack s
  | .athUnpack => Sys2Proof.Machine.execAthUnpack s
  | .cphPack => Sys2Proof.Machine.execCphPack s
  | .cphUnpack => Sys2Proof.Machine.execCphUnpack s
  | .cpPack => Sys2Proof.Machine.execCpPack s
  | .cpUnpack => Sys2Proof.Machine.execCpUnpack s
  | .sphPack => Sys2Proof.Machine.execSphPack s
  | .sphUnpack => Sys2Proof.Machine.execSphUnpack s
  | .spfPack => Sys2Proof.Machine.execSpfPack s
  | .spfUnpack => Sys2Proof.Machine.execSpfUnpack s
  | .spPack => Sys2Proof.Machine.execSpPack s
  | .spUnpack => Sys2Proof.Machine.execSpUnpack s

end Sys2Proof.Machine
end

