-- ==== Sys2Proof/Machine/HostActions.lean ====
section
/-! DEFINITION. The host's actions on the block (10_state.md R39), one step each. -/

namespace Sys2Proof.Machine

/-- An index as a register number; used only with indices below 8, which `HostAction.wellFormed` checks. -/
def regIndex (i : Nat) : Fin 8 := Fin.ofNat 8 i

/-- The answer of a read action is handed to the host; the block does not change (10_state.md R39). -/
def State.reply (s : State) (answer : HostReply) : State := { s with replies := s.replies ++ [answer] }

/-- `cmd op`: a listed opcode runs its command, any other raises Illegal(OPCODE) (30_encoding.md R70,
R74). -/
def runCommand (op : Byte) (s : State) : Host.Outcome State Fault Refusal :=
  match decode op with
  | .instr i => exec i s
  | .illegalOpcode _ => .next s.illegalOpcode

/-- The effect of one well-formed action (the table of 10_state.md R39). -/
def actionEffect (act : HostAction) (s : State) : Host.Outcome State Fault Refusal :=
  match act with
  | .seta i v => .next (s.setA (regIndex i) (BitVec.ofInt 64 v))
  | .load bytes => .next (s.loadSpan bytes)
  | .cmd op => runCommand op s
  | .geta i => .next (s.reply (.word s.a[regIndex i]))
  | .getr i => .next (s.reply (.word s.r[regIndex i]))
  | .gets => .next (s.reply (.status (statusRead s.status)))
  | .geti => .next (s.reply (.span s.ibuf))
  | .geto => .next (s.reply (.span s.obuf))
  | .reset => .next s.resetBlock

/-- An action that meets R39's conditions has its effect; any other is "not an action of the model" and is
refused (93_implementation_defined.md U12; log entry 9). -/
def performAction (act : HostAction) (s : State) : Host.Outcome State Fault Refusal :=
  if act.wellFormed then actionEffect act s else .refused (.notAHostAction act)

/-- The action is done: the command pointer advances by one, whether the action succeeded or raised an
error (10_state.md R23). -/
def State.advance (s : State) : State :=
  { s with pending := s.pending.tail, cp := s.cp + 1 }

/-- The command pointer's advance after an action that has a next state. -/
def advanceAfter : Host.Outcome State Fault Refusal → Host.Outcome State Fault Refusal
  | .next t => .next t.advance
  | .fault f => .fault f
  | .refused r => .refused r

/-- The next action of the host's program, or none where the run has ended (10_state.md R23). -/
def State.nextAction (s : State) : Option HostAction := s.pending.head?

end Sys2Proof.Machine
end

