-- ==== Sys2Proof/Machine/Step.lean ====
section
/-! DEFINITION. One step: the host's next action is performed and `cp` advances (10_state.md R23, R39;
30_encoding.md R70). -/

namespace Sys2Proof.Machine

/-- One step. With no action left the run has ended and the block is idle: nothing changes (10_state.md
R23, 70_reset_and_hazards.md R301, 60_exceptions.md R287; log entry 8). -/
def step (s : State) : Host.Outcome State Fault Refusal :=
  match s.nextAction with
  | none => .next s
  | some act => advanceAfter (performAction act s)

/-- `s` with the command whose word is `w` as the host's next action, in the place of the one that stood
there (log entry 8). A command is one byte, so only bits 7:0 of `w` are the command. -/
def State.withFetchWord (s : State) (_nbits w : Nat) : State :=
  { s with pending := .cmd (BitVec.ofNat 8 w) :: s.pending.tail }

end Sys2Proof.Machine
end

