-- ==== Sys2Proof/Machine/FecTest.lean ====
section
/-! DEFINITION. `FEC_TEST`, the stand-in code of 43_fec.md R180, for tests and witnesses only. It is not
the modem's code, and the machine does not use it: its code is `Config.fecCode`. -/

namespace Sys2Proof.Machine

/-- `encode(p)`: each byte four times (43_fec.md R180). -/
def fecTestEncode : Span → Span
  | [] => []
  | b :: p => b :: b :: b :: b :: fecTestEncode p

/-- Law L1 for `FEC_TEST` (43_fec.md R172). -/
theorem fecTestEncode_length (p : Span) :
    (fecTestEncode p).toArray.size = Config.fecGroup * p.length := by
  induction p with
  | nil => rfl
  | cons b p ih =>
    simp only [List.size_toArray, fecTestEncode, List.length_cons, Config.fecGroup] at ih ⊢
    omega

/-- How many of a chunk's bytes have bit `j` set (43_fec.md R180). -/
def bitVotes (chunk : Span) (j : Nat) : Nat := chunk.countP (·.getLsbD j)

/-- The byte whose bit `j` is 1 where at least three of the four bytes have it (43_fec.md R180). -/
def majorityByte (chunk : Span) : Byte :=
  (List.range 8).foldl
    (fun acc j => if 3 ≤ bitVotes chunk j then acc ||| ((1 : Byte) <<< j) else acc) 0

/-- `step`: the majority byte, or rejection where a bit is split two against two (43_fec.md R180). -/
def fecTestStep (chunk : Span) : Option Byte :=
  if (List.range 8).any (fun j => bitVotes chunk j = 2) then none else some (majorityByte chunk)

/-- A one-byte span, which fits every buffer. -/
def oneByteSpan (b : Byte) : { out : Span // out.length ≤ Config.bufCap } := ⟨[b], by simp [Config.bufCap]⟩

/-- `FEC_TEST` as a value of the parameter `FEC_CODE` (43_fec.md R180). -/
def fecTest : FecCode where
  hist0 := ⟨0⟩
  encode p := ⟨(fecTestEncode p).toArray, fecTestEncode_length p⟩
  step h chunk := (fecTestStep chunk).map fun b => (h, oneByteSpan b)

end Sys2Proof.Machine
end

