-- ==== Sys2Proof/Safety.lean ====
section
/-! DEFINITION. The terms the claims use: what a good state is, which errors a command may raise, the
laws of an FEC code, the spec's other forms of its algorithms, and its command sequences. -/

namespace Sys2Proof.Machine

/-! ### How `STATUS` may change (10_state.md R25) -/

/-- `STATUS` after a success: `KIND` and `FIELD` 0, the rest kept. -/
def StatusIsSuccess (old new : BitVec 16) : Prop :=
  statusKind new = 0 ∧ statusField new = 0 ∧ statusSticky new = statusSticky old ∧
    statusReserved new = statusReserved old

/-- `STATUS` after `raise`: the error's codes, `STICKY` set, the reserved bits kept. -/
def StatusIsError (old new : BitVec 16) (e : CmdError) : Prop :=
  statusKind new = kindCode e.kind ∧ statusField new = fieldCode e.field ∧ statusSticky new = 1 ∧
    statusReserved new = statusReserved old

/-! ### The scalar operands and their ranges (60_exceptions.md R271) -/

/-- One row of R271: the argument register, its legal range, and the field an error names. -/
structure FieldRange where
  reg : Fin 8
  lo : Int
  hi : Int
  field : FieldCode
  deriving DecidableEq, Repr

/-- The operand of a row lies in its range. -/
abbrev FieldRange.holds (f : FieldRange) (s : State) : Prop := f.lo ≤ s.arg f.reg ∧ s.arg f.reg ≤ f.hi

/-- The argument-register rows of R271, per command, in check order. CP.PACK and SP.PACK check a computed
length before theirs. -/
def rangeTable : Instr → List FieldRange
  | .bfPack => [⟨0, 0, 3, .priority⟩, ⟨1, 0, 31, .source⟩, ⟨2, 0, 31, .destinationAddr⟩,
      ⟨3, 0, 63, .destinationPort⟩, ⟨4, 0, 63, .sourcePort⟩, ⟨5, 0, 255, .flags⟩]
  | .athPack => [⟨0, 0, 3, .priority⟩, ⟨1, 0, 31, .source⟩, ⟨2, 0, 31, .destinationAddr⟩,
      ⟨3, 0, 63, .destinationPort⟩, ⟨4, 0, 63, .sourcePort⟩]
  | .bfUnpack => [⟨6, 0, 2 ^ 32 - 1, .value⟩]
  | .putU8 => [⟨0, 0, 255, .value⟩]
  | .putLe16 => [⟨0, 0, 65535, .value⟩]
  | .putBe16 => [⟨0, 0, 65535, .value⟩]
  | .putLe32 => [⟨0, 0, 2 ^ 32 - 1, .value⟩]
  | .putBe32 => [⟨0, 0, 2 ^ 32 - 1, .value⟩]
  | .crcBit => [⟨0, 0, 1, .value⟩]
  | .crcByte => [⟨0, 0, 255, .value⟩]
  | .cphPack => [⟨0, 6, 251, .length⟩, ⟨1, 0, 65535, .hardwareId⟩, ⟨2, 0, 65535, .sequenceNumber⟩,
      ⟨3, 0, 255, .destination⟩, ⟨4, 0, 255, .commandNumber⟩]
  | .cpPack => [⟨1, 0, 65535, .hardwareId⟩, ⟨2, 0, 65535, .sequenceNumber⟩,
      ⟨3, 0, 255, .destination⟩, ⟨4, 0, 255, .commandNumber⟩]
  | .sphPack => [⟨0, 10, 251, .length⟩, ⟨1, 0, 1, .port⟩, ⟨2, 0, 65535, .sequenceNumber⟩,
      ⟨3, 0, 255, .destination⟩, ⟨4, 0, 255, .commandNumber⟩]
  | .spfPack => [⟨5, 0, 65535, .hardwareId⟩, ⟨6, 0, 65535, .crc⟩]
  | .spPack => [⟨1, 0, 1, .port⟩, ⟨2, 0, 65535, .sequenceNumber⟩, ⟨3, 0, 255, .destination⟩,
      ⟨4, 0, 255, .commandNumber⟩, ⟨5, 0, 65535, .hardwareId⟩]
  | .nop | .xfer | .clrerr | .sreset | .getU8 | .getLe16 | .getBe16 | .getLe32 | .getBe32
  | .crcInit | .crcRead | .crcSpan | .pn9Seed | .pn9Bit | .pn9Byte | .whiten
  | .fecEncode | .fecNew | .fecPrime | .fecSubmit | .athUnpack | .cphUnpack | .cpUnpack
  | .sphUnpack | .spfUnpack | .spUnpack => []

/-- The computed length of CP.PACK and SP.PACK is at most 251 (60_exceptions.md R271); no other command
computes one. -/
abbrev ComputedLengthFits (i : Instr) (s : State) : Prop :=
  (i = .cpPack → 6 + s.ibuf.length ≤ 251) ∧ (i = .spPack → 10 + s.ibuf.length ≤ 251)

/-- Every scalar operand of a command is in its range. -/
abbrev OperandsInRange (i : Instr) (s : State) : Prop :=
  ComputedLengthFits i s ∧ ∀ f ∈ rangeTable i, f.holds s

/-- A command whose operands are not all in range raises Range of the first that is not, a computed length
before the argument registers (60_exceptions.md R277), and writes only `STATUS`. -/
def RaisesFirstRangeError (i : Instr) (s : State) : Prop :=
  (¬ ComputedLengthFits i s →
    exec i s = .next { s with status := statusRaise s.status ⟨.range, .length⟩ }) ∧
  ∀ passed f rest, ComputedLengthFits i s → rangeTable i = passed ++ f :: rest →
    (∀ g ∈ passed, g.holds s) → ¬ f.holds s →
      exec i s = .next { s with status := statusRaise s.status ⟨.range, f.field⟩ }

/-! ### The errors a command can raise (60_exceptions.md R271 to R275, R279) -/

/-- The complete list of errors per command: R279's "(command, kind, FIELD) triples". -/
def legalErrors : Instr → List CmdError
  | .bfPack => [⟨.range, .priority⟩, ⟨.range, .source⟩, ⟨.range, .destinationAddr⟩,
      ⟨.range, .destinationPort⟩, ⟨.range, .sourcePort⟩, ⟨.range, .flags⟩]
  | .athPack => [⟨.range, .priority⟩, ⟨.range, .source⟩, ⟨.range, .destinationAddr⟩,
      ⟨.range, .destinationPort⟩, ⟨.range, .sourcePort⟩]
  | .bfUnpack | .putU8 | .putLe16 | .putBe16 | .putLe32 | .putBe32 | .crcBit | .crcByte =>
      [⟨.range, .value⟩]
  | .getU8 | .getLe16 | .getBe16 | .getLe32 | .getBe32 | .athUnpack | .spfUnpack =>
      [⟨.length, .inputSpan⟩]
  | .cphPack | .cpPack => [⟨.range, .length⟩, ⟨.range, .hardwareId⟩, ⟨.range, .sequenceNumber⟩,
      ⟨.range, .destination⟩, ⟨.range, .commandNumber⟩]
  | .cphUnpack => [⟨.length, .inputSpan⟩, ⟨.range, .length⟩]
  | .cpUnpack => [⟨.length, .inputSpan⟩, ⟨.range, .length⟩, ⟨.integrity, .length⟩]
  | .sphPack => [⟨.range, .length⟩, ⟨.range, .port⟩, ⟨.range, .sequenceNumber⟩,
      ⟨.range, .destination⟩, ⟨.range, .commandNumber⟩]
  | .sphUnpack => [⟨.length, .inputSpan⟩, ⟨.range, .length⟩, ⟨.range, .port⟩]
  | .spfPack => [⟨.range, .hardwareId⟩, ⟨.range, .crc⟩]
  | .spPack => [⟨.range, .length⟩, ⟨.range, .port⟩, ⟨.range, .sequenceNumber⟩,
      ⟨.range, .destination⟩, ⟨.range, .commandNumber⟩, ⟨.range, .hardwareId⟩]
  | .spUnpack => [⟨.length, .inputSpan⟩, ⟨.range, .length⟩, ⟨.range, .port⟩,
      ⟨.integrity, .length⟩, ⟨.checksum, .crc⟩]
  | .fecEncode => [⟨.length, .outputSpan⟩]
  | .fecPrime => [⟨.desync, .sequence⟩]
  | .fecSubmit => [⟨.desync, .sequence⟩, ⟨.desync, .chunk⟩]
  | .nop | .xfer | .clrerr | .sreset | .crcInit | .crcRead | .crcSpan | .pn9Seed | .pn9Bit
  | .pn9Byte | .whiten | .fecNew => []

/-- An error that some command, or an illegal opcode (60_exceptions.md R278), can raise. -/
def SomeCommandRaises (e : CmdError) : Prop :=
  e = ⟨.illegal, .opcode⟩ ∨ ∃ i, e ∈ legalErrors i

/-! ### The access summary (10_state.md R31, 30_encoding.md R72) -/

/-- The result registers a command's rule names (the `writes` column of R72). -/
def resultsWritten : Instr → List (Fin 8)
  | .bfPack => [6]
  | .bfUnpack => [0, 1, 2, 3, 4, 5]
  | .getU8 | .getLe16 | .getBe16 | .getLe32 | .getBe32 | .crcRead | .crcSpan | .pn9Bit
  | .pn9Byte | .cpPack => [0]
  | .athUnpack | .cphUnpack | .cpUnpack | .sphUnpack => [0, 1, 2, 3, 4]
  | .spfUnpack => [5, 6]
  | .spPack => [0, 6]
  | .spUnpack => [0, 1, 2, 3, 4, 5, 6]
  | .sreset => [0, 1, 2, 3, 4, 5, 6, 7]
  | .nop | .xfer | .clrerr | .putU8 | .putLe16 | .putBe16 | .putLe32 | .putBe32 | .crcInit
  | .crcBit | .crcByte | .pn9Seed | .whiten | .fecEncode | .fecNew | .fecPrime | .fecSubmit
  | .athPack | .cphPack | .sphPack | .spfPack => []

/-- The commands that write the output span. -/
def spanWriters : List Instr :=
  [.sreset, .putU8, .putLe16, .putBe16, .putLe32, .putBe32, .crcRead, .crcSpan, .whiten, .fecEncode,
    .fecPrime, .fecSubmit, .athPack, .cphPack, .cpPack, .cpUnpack, .sphPack, .spfPack, .spPack,
    .spUnpack]

/-- The commands that write `CRC_ACC` (10_state.md R27, R31). -/
def crcWriters : List Instr := [.sreset, .crcInit, .crcBit, .crcByte, .crcSpan, .spPack, .spUnpack]

/-- The commands that write `PN9_S` (10_state.md R28, R31). -/
def pn9Writers : List Instr := [.sreset, .pn9Seed, .pn9Bit, .pn9Byte, .whiten]

/-- The commands that write `FEC_PHASE` (10_state.md R29, R31). -/
def phaseWriters : List Instr := [.sreset, .fecNew, .fecPrime, .fecSubmit]

/-- The commands that write `FEC_HIST` (10_state.md R30, R31). -/
def histWriters : List Instr := [.sreset, .fecPrime, .fecSubmit]

/-! ### Reset (10_state.md R33) -/

/-- The block's registers at the values R33 gives; `FEC_HIST` is left open, as R33 leaves it. -/
def BlockAtReset (s : State) : Prop :=
  (∀ k : Fin 8, s.a[k] = 0) ∧ (∀ k : Fin 8, s.r[k] = 0) ∧ s.status = 0x0000#16 ∧
    s.crcAcc = 0xFFFF#16 ∧ s.pn9 = 0x1FF#9 ∧ s.fecPhase = .unprimed ∧ s.ilen = 0 ∧ s.olen = 0

/-- The host's state: its program, its pointer and what it has read. -/
def SameHost (s t : State) : Prop :=
  t.pending = s.pending ∧ t.cp = s.cp ∧ t.replies = s.replies

/-! ### Good states -/

/-- A `STATUS` value that can be written: reserved bits 0, and either OK or the codes of an error with
`STICKY` set (10_state.md R24, R25; 60_exceptions.md R279). -/
def StatusLegal (w : BitVec 16) : Prop :=
  statusReserved w = 0 ∧
    ((statusKind w = 0 ∧ statusField w = 0) ∨
      ∃ e, SomeCommandRaises e ∧ statusKind w = kindCode e.kind ∧
        statusField w = fieldCode e.field ∧ statusSticky w = 1)

/-- The invariant of the machine: the buffers keep their capacity (10_state.md R34, R35), `STATUS` is
legal, `PN9_S` is not 0 (R28) and every result register is below 2^32 (R21). -/
def GoodState (s : State) : Prop :=
  Memory.wf s = true ∧ StatusLegal s.status ∧ s.pn9 ≠ 0 ∧ ∀ k : Fin 8, (s.r[k]).toNat < 2 ^ 32

/-- The history that a code reaches from `h` by accepting chunks in order, or none where it rejects one
(43_fec.md R174, R177). -/
def historyAfter (code : FecCode) : FecHist → List Span → Option FecHist
  | h, [] => some h
  | h, c :: cs => (code.step h c).bind fun next => historyAfter code next.1 cs

/-- What `FEC_PHASE` says of `FEC_HIST` (10_state.md R30, 43_fec.md R174): before the first chunk it is
what FEC.PRIME installed, afterwards what a nonempty list of accepted chunks led to. -/
def DecoderHistoryFits (s : State) : Prop :=
  (s.fecPhase = .primedEmpty → s.fecHist = Config.fecCode.hist0) ∧
  (s.fecPhase = .accepting → ∃ chunks : List Span, chunks ≠ [] ∧
    (∀ c ∈ chunks, c.length = Config.fecGroup) ∧
    historyAfter Config.fecCode Config.fecCode.hist0 chunks = some s.fecHist)

/-! ### Command sequences -/

/-- The next command, where the one before had a next state. -/
def andThen (o : Host.Outcome State Fault Refusal)
    (f : State → Host.Outcome State Fault Refusal) : Host.Outcome State Fault Refusal :=
  match o with
  | .next t => f t
  | .fault r => .fault r
  | .refused r => .refused r

/-- The host gives the results `R` of one command as the arguments `A` of the next (10_state.md R22). -/
def State.argsFromResults (s : State) : State := { s with a := s.r }

/-- The commands whose result depends on an engine register that they also advance (20_memory.md R58). -/
def streamingCommands : List Instr := [.crcBit, .crcByte, .pn9Bit, .pn9Byte, .fecPrime, .fecSubmit]

/-! ### Other forms of the CRC (41_crc16.md R131, R133) -/

/-- One bit of the document's own algorithm: an unbounded accumulator and working byte; `branch` of
R131. -/
def crcDocumentBit (acc wb : Nat) : Nat :=
  if (((acc &&& 0x8000) >>> 8) ^^^ (wb &&& 0x80)) ≠ 0 then (acc <<< 1) ^^^ 0x8005 else acc <<< 1

/-- `n` bits of the document's algorithm; the working byte is shifted left after each test. -/
def crcDocumentBits : Nat → Nat → Nat → Nat
  | 0, acc, _ => acc
  | n + 1, acc, wb => crcDocumentBits n (crcDocumentBit acc wb) (wb <<< 1)

/-- The document's `crc16`: masked to 16 bits only "After all bits of all bytes". -/
def crcDocument (B : Span) : Nat :=
  (B.foldl (fun acc b => crcDocumentBits 8 acc b.toNat) 0xFFFF) &&& 0xFFFF

/-- CRC.BYTE for each byte of a span in order, each after `seta A0, b` (41_crc16.md R139). -/
def streamBytes : Span → State → Host.Outcome State Fault Refusal
  | [], s => .next s
  | b :: B, s => andThen (exec .crcByte (s.setA 0 (b.setWidth 64))) (streamBytes B)

/-- CRC.BIT for each of the low `n` bits of a byte, most significant first, each after `seta A0, d`
(41_crc16.md R139). -/
def streamBits (b : Byte) : Nat → State → Host.Outcome State Fault Refusal
  | 0, s => .next s
  | n + 1, s =>
    andThen (exec .crcBit (s.setA 0 ((BitVec.ofBool (b.getLsbD n)).setWidth 64))) (streamBits b n)

/-- Eight CRC.BIT commands for each byte of a span (41_crc16.md R139). -/
def streamSpanBits : Span → State → Host.Outcome State Fault Refusal
  | [], s => .next s
  | b :: B, s => andThen (streamBits b 8 s) (streamSpanBits B)

/-- A span with one bit of one byte flipped. -/
def flipBit (B : Span) (k j : Nat) : Span := B.modify k fun b => b ^^^ ((1 : Byte) <<< j)

/-! ### Other forms of the whitening generator (42_whitening.md R151, R154) -/

/-- The register after `n` bit-advances. -/
def pn9Iterate : Nat → BitVec 9 → BitVec 9
  | 0, S => S
  | n + 1, S => pn9Iterate n (pn9Step S).1

/-- The emitted bit sequence `o(n)` from a register (42_whitening.md R151). -/
def pn9Output (S : BitVec 9) (n : Nat) : Bool := (pn9Step (pn9Iterate n S)).2

/-- `S` with its nine bits reversed: `T[i] = S[8-i]` (42_whitening.md R154). -/
def pn9Mirror (S : BitVec 9) : BitVec 9 := S.reverse

/-- One bit-advance of the right-shifting form (42_whitening.md R154). -/
def mirrorStep (T : BitVec 9) : BitVec 9 :=
  (T >>> 1) ||| ((BitVec.ofBool (T.getLsbD 0 ^^ T.getLsbD 5)).setWidth 9 <<< 8)

/-- `n` bit-advances of the right-shifting form. -/
def mirrorIterate : Nat → BitVec 9 → BitVec 9
  | 0, T => T
  | n + 1, T => mirrorIterate n (mirrorStep T)

/-- The keystream of the right-shifting form: each byte is `T[7:0]`, then eight bit-advances
(42_whitening.md R154). -/
def mirrorKeyFrom : Nat → BitVec 9 → Span
  | 0, _ => []
  | n + 1, T => T.setWidth 8 :: mirrorKeyFrom n (mirrorIterate 8 T)

/-- `n` PN9.BIT commands, collecting `R[0]` after each (42_whitening.md R159). -/
def drawBits : Nat → State → List Word → Host.Outcome State Fault Refusal × List Word
  | 0, s, bits => (.next s, bits)
  | n + 1, s, bits =>
    match exec .pn9Bit s with
    | .next t => drawBits n t (bits ++ [t.r[0]])
    | o => (o, bits)

/-! ### Laws of an FEC code (43_fec.md R172) and the link chain (48_link_chain.md R260, R264) -/

/-- The consecutive chunks of `FEC_GROUP` bytes of a span (48_link_chain.md R264). -/
def chunksOf (B : Span) : List Span :=
  (List.range (B.length / Config.fecGroup)).map fun k =>
    memRead B (Config.fecGroup * k) Config.fecGroup

/-- The spans a code returns for a sequence of chunks, or none where it rejects one. -/
def submitSpans (code : FecCode) : FecHist → List Span → Option (List Span)
  | _, [] => some []
  | h, c :: cs =>
    match code.step h c with
    | none => none
    | some (h', out) => (submitSpans code h' cs).map (out.1 :: ·)

/-- Law L2, soundness on clean input (43_fec.md R172). -/
def SoundOnCleanInput (code : FecCode) : Prop :=
  ∀ p : Span, ∃ outs, submitSpans code code.hist0 (chunksOf (code.encode p).toList) = some outs ∧
    outs.flatten <+: p

/-- Law L4, zero latency (43_fec.md R172). -/
def ZeroLatency (code : FecCode) : Prop :=
  ∀ (p : Span) (outs : List Span),
    submitSpans code code.hist0 (chunksOf (code.encode p).toList) = some outs →
      ∀ out ∈ outs, out.length = 1

/-- The transmit chain of 48_link_chain.md R260 for a code, from a state whose arguments and input span
are loaded; the machine's own chain is the case `Config.fecCode`. -/
def transmitChain (code : FecCode) (s : State) : Host.Outcome State Fault Refusal :=
  andThen (exec .spPack s) fun s =>
    andThen (exec .xfer s) fun s =>
      andThen (.next (fecEncodeWith code s)) fun s =>
        andThen (exec .xfer s) fun s => exec .whiten s

/-- FEC.SUBMIT once per chunk, the host appending each output span (48_link_chain.md R264). -/
def submitLoop (code : FecCode) : List Span → Span → State → State × Span
  | [], gathered, s => (s, gathered)
  | c :: cs, gathered, s =>
    let t := fecSubmitWith code (s.loadSpan c)
    submitLoop code cs (gathered ++ t.obuf) t

/-- The receive chain of 48_link_chain.md R264 for a code and the raw RF bytes. -/
def receiveChain (code : FecCode) (raw : Span) (s : State) : Host.Outcome State Fault Refusal :=
  andThen (exec .whiten (s.loadSpan raw)) fun s =>
    andThen (exec .fecNew s) fun t =>
      let (u, frame) := submitLoop code (chunksOf s.obuf) [] (fecPrimeWith code t)
      exec .spUnpack (u.loadSpan frame)

end Sys2Proof.Machine
end

