-- ==== Sys2Proof/Certificates/Slice0/Obligations.lean ====
section
/-! DEFINITION. The statements for the provers, each about every state. A result is written as the whole
next state, so that it says what changes and that nothing else does; values are written in plain
arithmetic on the operands, not with the functions the meanings call. -/

open Sys2Proof Sys2Proof.Machine

/-! ### Encoding (30_encoding.md) -/

/-- Every command's word decodes to that command and nothing else (30_encoding.md R71, R72). -/
def Obligations.DecodeInvertsEncode : Prop :=
  ∀ i : Instr, i.wellFormed = true →
    (encode i).map decode = [.instr i] ∧ decodeTableWord 8 (opcode i).toNat = some i ∧
      ∀ op, decode op = .instr i → op = opcode i

/-- One word of each family decodes to its command (30_encoding.md R72). -/
def Obligations.SampleWordsDecode : Prop :=
  decode 0x01 = .instr .xfer ∧ decode 0x10 = .instr .bfPack ∧ decode 0x1C = .instr .getBe16 ∧
    decode 0x24 = .instr .crcSpan ∧ decode 0x33 = .instr .whiten ∧ decode 0x43 = .instr .fecSubmit ∧
    decode 0x51 = .instr .athUnpack ∧ decode 0x63 = .instr .cpUnpack ∧ decode 0x75 = .instr .spUnpack

/-- 30_encoding.md R74: the listed values raise Illegal(OPCODE), code 6 with FIELD 19, and change nothing
but `STATUS`; every other value is a command. -/
def Obligations.UnlistedOpcodesRaiseIllegal : Prop :=
  ∀ op : Byte,
    let n := op.toNat
    let unlisted := (0x04 ≤ n ∧ n ≤ 0x0F) ∨ (0x17 ≤ n ∧ n ≤ 0x19) ∨ n = 0x1F ∨
      (0x25 ≤ n ∧ n ≤ 0x2F) ∨ (0x34 ≤ n ∧ n ≤ 0x3F) ∨ (0x44 ≤ n ∧ n ≤ 0x4F) ∨
      (0x52 ≤ n ∧ n ≤ 0x5F) ∨ (0x64 ≤ n ∧ n ≤ 0x6F) ∨ (0x76 ≤ n ∧ n ≤ 0x7F) ∨ 0x80 ≤ n
    (unlisted → ∀ s : State, ∃ w, runCommand op s = .next { s with status := w } ∧
      statusKind w = 6 ∧ statusField w = 19 ∧ statusSticky w = 1 ∧
        statusReserved w = statusReserved s.status) ∧
    (¬ unlisted → ∃ i, decode op = .instr i)

/-! ### Steps and host actions (10_state.md R23, R39; 30_encoding.md R70) -/

/-- 30_encoding.md R70: the command that the host issues is decoded and its rule is executed, or R74's; the
host's program moves on by one action. -/
def Obligations.StepRunsTheDecodedCommand : Prop :=
  ∀ (s : State) (op : Byte) (rest : List HostAction), s.pending = .cmd op :: rest →
    (∀ i, decode op = .instr i → i.wellFormed = true →
      ∃ t, exec i s = .next t ∧ step s = .next { t with pending := rest, cp := s.cp + 1 }) ∧
    (∀ bad, decode op = .illegalOpcode bad →
      step s = .next
        { s with
          status := statusRaise s.status ⟨.illegal, .opcode⟩
          pending := rest
          cp := s.cp + 1 })

/-- 10_state.md R23: every action, failing or not, advances `cp` by exactly one; none stops the machine. -/
def Obligations.EveryActionAdvancesByOne : Prop :=
  ∀ (s : State) (act : HostAction) (rest : List HostAction),
    s.pending = act :: rest → act.wellFormed = true →
      ∃ t, step s = .next t ∧ t.pending = rest ∧ t.cp = s.cp + 1

/-- The run ends where no action is left, and the block then stays as it is. That an ended run idles
is the model's reading (log entry 8). -/
def Obligations.EndedRunStaysIdle : Prop :=
  ∀ s : State, s.pending = [] → step s = .next s

/-- 10_state.md R39, the rows of `seta`, `load` and the read actions. The bounds are the model's choice of
the open parameters' defaults: 64 bits of a `seta` value (log entry 1) and 1024 bytes of a load (log
entry 2). What a read returns is appended to `replies`, the model's own field (log entry 12). -/
def Obligations.HostActionsHaveTheirEffect : Prop :=
  ∀ (s : State) (rest : List HostAction),
    (∀ (i : Nat) (v : Int) (hi : i < 8), -(2 ^ 63) ≤ v → v < 2 ^ 63 → s.pending = .seta i v :: rest →
      ∃ w : Word, w.toInt = v ∧
        step s = .next { s with a := s.a.set i w hi, pending := rest, cp := s.cp + 1 }) ∧
    (∀ B : Span, B.length ≤ 1024 → s.pending = .load B :: rest →
      step s = .next { s with ibuf := B, pending := rest, cp := s.cp + 1 }) ∧
    (∀ (i : Nat) (hi : i < 8), s.pending = .geta i :: rest →
      step s = .next
        { s with replies := s.replies ++ [.word (s.a[i]'hi)], pending := rest, cp := s.cp + 1 }) ∧
    (∀ (i : Nat) (hi : i < 8), s.pending = .getr i :: rest →
      step s = .next
        { s with replies := s.replies ++ [.word (s.r[i]'hi)], pending := rest, cp := s.cp + 1 }) ∧
    (s.pending = .gets :: rest →
      ∃ w, step s = .next
          { s with replies := s.replies ++ [.status w], pending := rest, cp := s.cp + 1 } ∧
        statusReserved w = 0 ∧ statusSticky w = statusSticky s.status ∧
        statusField w = statusField s.status ∧ statusKind w = statusKind s.status) ∧
    (s.pending = .geti :: rest →
      step s = .next
        { s with replies := s.replies ++ [.span s.ibuf], pending := rest, cp := s.cp + 1 }) ∧
    (s.pending = .geto :: rest →
      step s = .next
        { s with replies := s.replies ++ [.span s.obuf], pending := rest, cp := s.cp + 1 })

/-- 93_implementation_defined.md U12: an index above 7, a value outside a register or a load longer than
the buffer is no action of the model. The bounds, 64 bits (log entry 1) and 1024 bytes (log entry 2), and
the refusal's name (log entry 9) are the model's choices. -/
def Obligations.InadmissibleActionsAreRefused : Prop :=
  ∀ (s : State) (act : HostAction) (rest : List HostAction), s.pending = act :: rest →
    ((∃ i v, act = .seta i v ∧ (8 ≤ i ∨ v < -(2 ^ 63) ∨ 2 ^ 63 ≤ v)) ∨
      (∃ B, act = .load B ∧ 1024 < B.length) ∨
      (∃ i, (act = .geta i ∨ act = .getr i) ∧ 8 ≤ i)) →
    step s = .refused (.notAHostAction act)

/-! ### Reset (10_state.md R33, 70_reset_and_hazards.md R300) -/

/-- 10_state.md R33: after reset, after SRESET and after the host's reset, every register of the block has
the value R33 gives. `FEC_HIST` is left open, as R33 leaves it. -/
def Obligations.ResetGivesTheResetValues : Prop :=
  BlockAtReset State.reset ∧
  (∀ s : State, ∃ t, exec .sreset s = .next t ∧ BlockAtReset t ∧ SameHost s t) ∧
  (∀ (s : State) (rest : List HostAction), s.pending = .reset :: rest →
    ∃ t, step s = .next t ∧ BlockAtReset t ∧
      t.pending = rest ∧ t.cp = s.cp + 1 ∧ t.replies = s.replies)

/-! ### `STATUS` and errors (10_state.md R24 to R26, 60_exceptions.md) -/

/-- 10_state.md R25 and 60_exceptions.md R279: every command has a next state; it writes `STATUS` as a
success or as an error of its own list; CLRERR and SRESET write 0. -/
def Obligations.EveryCommandWritesStatus : Prop :=
  ∀ (i : Instr) (s : State), ∃ t, exec i s = .next t ∧
    (i = .clrerr ∨ i = .sreset → t.status = 0) ∧
    (i ≠ .clrerr → i ≠ .sreset →
      StatusIsSuccess s.status t.status ∨
        ∃ e ∈ legalErrors i, StatusIsError s.status t.status e)

/-- 60_exceptions.md R280: a command that fails, an illegal opcode among them, changes nothing but
`STATUS`. -/
def Obligations.FailingCommandWritesOnlyStatus : Prop :=
  ∀ (op : Byte) (s t : State), runCommand op s = .next t → statusKind t.status ≠ 0 →
    t = { s with status := t.status }

/-- 10_state.md R26: no command's result depends on `STATUS`: whatever it held, a command has the same
outcome and changes everything but `STICKY` and the reserved bits alike. -/
def Obligations.NoResultDependsOnStatus : Prop :=
  ∀ (i : Instr) (s t : State) (w : BitVec 16), exec i s = .next t →
    ∃ u, exec i { s with status := w } = .next u ∧ { u with status := t.status } = t ∧
      statusKind u.status = statusKind t.status ∧ statusField u.status = statusField t.status

/-- The access summary of 10_state.md R31 and R21, R34, R35: what each command may write.
That FEC.NEW is none of the writers of `FEC_HIST` follows R31's table (log entry 14). -/
def Obligations.CommandsWriteOnlyTheirState : Prop :=
  ∀ (i : Instr) (s t : State), exec i s = .next t →
    (i ≠ .sreset → ∀ k : Fin 8, t.a[k] = s.a[k]) ∧
    (∀ k : Fin 8, k ∉ resultsWritten i → t.r[k] = s.r[k]) ∧
    (i ∉ crcWriters → t.crcAcc = s.crcAcc) ∧
    (i ∉ pn9Writers → t.pn9 = s.pn9) ∧
    (i ∉ phaseWriters → t.fecPhase = s.fecPhase) ∧
    (i ∉ histWriters → t.fecHist = s.fecHist) ∧
    (i ≠ .xfer → i ≠ .sreset → ∀ a, readByte t.ibuf a = readByte s.ibuf a) ∧
    (i ∉ spanWriters → ∀ a, readByte t.obuf a = readByte s.obuf a) ∧
    (i ≠ .sreset → t.freeCount = s.freeCount) ∧
    SameHost s t

/-- 10_state.md R32: the span commands start afresh whatever the engine registers held; only a failing
SP.UNPACK leaves the old `CRC_ACC`. -/
def Obligations.SpanCommandsStartAfresh : Prop :=
  (∀ i ∈ [Instr.crcSpan, .spPack, .spUnpack], ∀ (s t : State) (acc : BitVec 16),
    exec i s = .next t →
      ∃ u, exec i { s with crcAcc := acc } = .next u ∧
        { u with crcAcc := t.crcAcc } = t ∧ (statusKind t.status = 0 → u = t)) ∧
  (∀ (s : State) (S : BitVec 9), exec .whiten { s with pn9 := S } = exec .whiten s)

/-- 20_memory.md R58: issued twice in a row, a command other than the streaming ones gives the same `R`,
`OBUF` and `STATUS`. -/
def Obligations.CommandsWithoutEngineStateRepeat : Prop :=
  ∀ (i : Instr) (s t : State), i ∉ streamingCommands → exec i s = .next t →
    ∃ u, exec i t = .next u ∧ u.r = t.r ∧ u.obuf = t.obuf ∧ u.status = t.status

/-! ### The invariant -/

/-- Every step keeps a good state good: buffers within `BUF_CAP`, `STATUS` legal, `PN9_S` not 0, results
below 2^32. -/
def Obligations.StepKeepsGoodState : Prop :=
  ∀ s t : State, GoodState s → step s = .next t → GoodState t

/-- The reset state is good. -/
def Obligations.ResetIsGoodState : Prop := GoodState State.reset

/-- 10_state.md R30 and 43_fec.md R174 over whole runs: every step keeps `FEC_HIST` the history that the
chunks accepted since FEC.PRIME led to, for the machine's code (log entry 4). -/
def Obligations.StepKeepsDecoderHistory : Prop :=
  ∀ s t : State, DecoderHistoryFits s → step s = .next t → DecoderHistoryFits t

/-- The reset state's decoder is unprimed, so its history is the one the invariant asks for. -/
def Obligations.ResetHasDecoderHistory : Prop := DecoderHistoryFits State.reset

/-! ### System commands (47_system.md) -/

/-- 47_system.md R250 to R252: the whole next state of NOP, XFER and CLRERR. -/
def Obligations.SystemCommandResults : Prop :=
  ∀ s : State,
    exec .nop s = .next { s with status := statusOk s.status } ∧
    exec .xfer s = .next { s with ibuf := s.obuf, status := statusOk s.status } ∧
    exec .clrerr s = .next { s with status := 0x0000#16 }

/-! ### Bitfield codec and byte order (40_bitfield_byteorder.md) -/

/-- 40_bitfield_byteorder.md R102: BF.PACK puts the six fields side by side, the first highest, or names
the first field out of range. -/
def Obligations.BfPackResult : Prop :=
  ∀ s : State,
    (OperandsInRange .bfPack s →
      exec .bfPack s = .next
        { s with
          r := s.r.set 6 (BitVec.ofInt 64 (s.arg 0 * 2 ^ 30 + s.arg 1 * 2 ^ 25 + s.arg 2 * 2 ^ 20
            + s.arg 3 * 2 ^ 14 + s.arg 4 * 2 ^ 8 + s.arg 5))
          status := statusOk s.status }) ∧
    RaisesFirstRangeError .bfPack s

/-- 40_bitfield_byteorder.md R103: BF.UNPACK takes the six fields of a 32-bit word apart. -/
def Obligations.BfUnpackResult : Prop :=
  ∀ s : State,
    (∀ w : Nat, s.arg 6 = w → w < 2 ^ 32 →
      exec .bfUnpack s = .next
        { s with
          r := (((((s.r.set 0 (BitVec.ofNat 64 (w / 2 ^ 30))).set 1
            (BitVec.ofNat 64 (w / 2 ^ 25 % 32))).set 2 (BitVec.ofNat 64 (w / 2 ^ 20 % 32))).set 3
            (BitVec.ofNat 64 (w / 2 ^ 14 % 64))).set 4 (BitVec.ofNat 64 (w / 2 ^ 8 % 64))).set 5
            (BitVec.ofNat 64 (w % 256))
          status := statusOk s.status }) ∧
    RaisesFirstRangeError .bfUnpack s

/-- 40_bitfield_byteorder.md R104: BF.UNPACK undoes BF.PACK, and BF.PACK undoes BF.UNPACK. -/
def Obligations.BitfieldRoundTrip : Prop :=
  ∀ s : State,
    (OperandsInRange .bfPack s →
      ∃ t u, exec .bfPack s = .next t ∧ exec .bfUnpack t.argsFromResults = .next u ∧
        ∀ k : Fin 8, k.val < 6 → u.r[k] = s.a[k]) ∧
    (OperandsInRange .bfUnpack s →
      ∃ t u, exec .bfUnpack s = .next t ∧ exec .bfPack t.argsFromResults = .next u ∧
        u.r[6] = s.a[6])

/-- 40_bitfield_byteorder.md R106 to R110: the bytes each PUT writes, or Range(VALUE). -/
def Obligations.PutHelperResults : Prop :=
  ∀ s : State,
    let v := s.arg 0
    let writes (bytes : Span) := { s with obuf := bytes, status := statusOk s.status }
    (0 ≤ v → v ≤ 255 → exec .putU8 s = .next (writes [BitVec.ofInt 8 v])) ∧
    (0 ≤ v → v ≤ 65535 →
      exec .putLe16 s = .next (writes [BitVec.ofInt 8 v, BitVec.ofInt 8 (v / 2 ^ 8)]) ∧
      exec .putBe16 s = .next (writes [BitVec.ofInt 8 (v / 2 ^ 8), BitVec.ofInt 8 v])) ∧
    (0 ≤ v → v ≤ 4294967295 →
      exec .putLe32 s = .next (writes [BitVec.ofInt 8 v, BitVec.ofInt 8 (v / 2 ^ 8),
        BitVec.ofInt 8 (v / 2 ^ 16), BitVec.ofInt 8 (v / 2 ^ 24)]) ∧
      exec .putBe32 s = .next (writes [BitVec.ofInt 8 (v / 2 ^ 24), BitVec.ofInt 8 (v / 2 ^ 16),
        BitVec.ofInt 8 (v / 2 ^ 8), BitVec.ofInt 8 v])) ∧
    ∀ i ∈ [Instr.putU8, .putLe16, .putBe16, .putLe32, .putBe32], RaisesFirstRangeError i s

/-- 40_bitfield_byteorder.md R111 to R115: the integer each GET reads, or Length(INPUT_SPAN). -/
def Obligations.GetHelperResults : Prop :=
  ∀ s : State,
    let reads (v : Nat) :=
      { s with r := s.r.set 0 (BitVec.ofNat 64 v), status := statusOk s.status }
    let sizeError := { s with status := statusRaise s.status ⟨.length, .inputSpan⟩ }
    (∀ b₀ : Byte, s.ibuf = [b₀] → exec .getU8 s = .next (reads b₀.toNat)) ∧
    (∀ b₀ b₁ : Byte, s.ibuf = [b₀, b₁] →
      exec .getLe16 s = .next (reads (b₀.toNat + 256 * b₁.toNat)) ∧
      exec .getBe16 s = .next (reads (256 * b₀.toNat + b₁.toNat))) ∧
    (∀ b₀ b₁ b₂ b₃ : Byte, s.ibuf = [b₀, b₁, b₂, b₃] →
      exec .getLe32 s = .next (reads
        (b₀.toNat + 2 ^ 8 * b₁.toNat + 2 ^ 16 * b₂.toNat + 2 ^ 24 * b₃.toNat)) ∧
      exec .getBe32 s = .next (reads
        (2 ^ 24 * b₀.toNat + 2 ^ 16 * b₁.toNat + 2 ^ 8 * b₂.toNat + b₃.toNat))) ∧
    (s.ibuf.length ≠ 1 → exec .getU8 s = .next sizeError) ∧
    (s.ibuf.length ≠ 2 → exec .getLe16 s = .next sizeError ∧ exec .getBe16 s = .next sizeError) ∧
    (s.ibuf.length ≠ 4 → exec .getLe32 s = .next sizeError ∧ exec .getBe32 s = .next sizeError)

/-- 40_bitfield_byteorder.md R116: GET undoes PUT, PUT undoes GET, and the two orders of one value are each
other's reverse. -/
def Obligations.ByteOrderRoundTrip : Prop :=
  ∀ s : State,
    (∀ pair ∈ [(Instr.putU8, Instr.getU8), (.putLe16, .getLe16), (.putBe16, .getBe16),
        (.putLe32, .getLe32), (.putBe32, .getBe32)],
      (OperandsInRange pair.1 s →
        ∃ t u v, exec pair.1 s = .next t ∧ exec .xfer t = .next u ∧ exec pair.2 u = .next v ∧
          v.r[0] = s.a[0]) ∧
      (∀ t, exec pair.2 s = .next t → statusKind t.status = 0 →
        ∃ u, exec pair.1 t.argsFromResults = .next u ∧ u.obuf = s.ibuf)) ∧
    (∀ pair ∈ [(Instr.putLe16, Instr.putBe16), (.putLe32, .putBe32)], OperandsInRange pair.1 s →
      ∃ t u, exec pair.1 s = .next t ∧ exec pair.2 s = .next u ∧ u.obuf = t.obuf.reverse)

/-! ### CRC16 (41_crc16.md) -/

/-- 41_crc16.md R134, R137: CRC.INIT seeds the accumulator; CRC.READ delivers it, low byte first, and
leaves it. -/
def Obligations.CrcInitAndReadResults : Prop :=
  ∀ s : State,
    exec .crcInit s = .next { s with crcAcc := 0xFFFF#16, status := statusOk s.status } ∧
    exec .crcRead s = .next
      { s with
        r := s.r.set 0 (BitVec.ofNat 64 s.crcAcc.toNat)
        obuf := [BitVec.ofNat 8 s.crcAcc.toNat, BitVec.ofNat 8 (s.crcAcc.toNat / 256)]
        status := statusOk s.status }

/-- 41_crc16.md R132, R135: CRC.BIT takes one step, whose bits are the register shifted by one with the
feedback at bits 0, 2 and 15; eight of them, bit 7 first, leave the accumulator that one CRC.BYTE leaves. -/
def Obligations.CrcBitResult : Prop :=
  ∀ s : State,
    (∀ d : Bool, s.arg 0 = (if d then 1 else 0) →
      ∃ acc : BitVec 16,
        exec .crcBit s = .next { s with crcAcc := acc, status := statusOk s.status } ∧
        ∀ k < 16, acc.getLsbD k =
          ((decide (0 < k) && s.crcAcc.getLsbD (k - 1)) ^^
            (decide (k = 0 ∨ k = 2 ∨ k = 15) && (s.crcAcc.getLsbD 15 ^^ d)))) ∧
    (∀ b : Byte, ∃ t u,
      streamBits b 8 s = .next t ∧ exec .crcByte (s.setA 0 (b.setWidth 64)) = .next u ∧
        t.crcAcc = u.crcAcc) ∧
    RaisesFirstRangeError .crcBit s

/-- 41_crc16.md R136: CRC.BYTE continues the accumulator by eight bit steps, bit 7 first. -/
def Obligations.CrcByteResult : Prop :=
  ∀ s : State,
    (∀ b : Byte, s.arg 0 = b.toNat →
      exec .crcByte s = .next
        { s with
          crcAcc := [7, 6, 5, 4, 3, 2, 1, 0].foldl
            (fun acc j => crcBitStep acc (b.getLsbD j)) s.crcAcc
          status := statusOk s.status }) ∧
    RaisesFirstRangeError .crcByte s

/-- 41_crc16.md R131, R138: CRC.SPAN delivers the value of the document's own algorithm over the input
span, low byte first, whatever `CRC_ACC` held. -/
def Obligations.CrcSpanResult : Prop :=
  ∀ s : State,
    let c := crcDocument s.ibuf
    exec .crcSpan s = .next
      { s with
        r := s.r.set 0 (BitVec.ofNat 64 c)
        obuf := [BitVec.ofNat 8 c, BitVec.ofNat 8 (c / 256)]
        crcAcc := BitVec.ofNat 16 c
        status := statusOk s.status }

/-- 41_crc16.md R133: the 16-bit register that drops bit 16 at every shift agrees with the document's
unbounded accumulator, at every length and from every start. -/
def Obligations.TruncatedCrcEqualsUnboundedCrc : Prop :=
  (∀ (acc : Nat) (B : Span),
    (crcFrom (BitVec.ofNat 16 acc) B).toNat =
      (B.foldl (fun acc b => crcDocumentBits 8 acc b.toNat) acc) % 2 ^ 16) ∧
  (∀ B : Span, (crc16 B).toNat = crcDocument B)

/-- 41_crc16.md R139: CRC.INIT, the bytes (or their bits, most significant first) one at a time, and
CRC.READ leave what CRC.SPAN leaves. -/
def Obligations.StreamingCrcEqualsSpanCrc : Prop :=
  ∀ (s : State) (B : Span), ∃ t, exec .crcSpan (s.loadSpan B) = .next t ∧
    ∀ stream ∈ [streamBytes B, streamSpanBits B],
      ∃ u, andThen (andThen (exec .crcInit s) stream) (exec .crcRead) = .next u ∧
        u.r[0] = t.r[0] ∧ u.obuf = t.obuf ∧ u.crcAcc = t.crcAcc

/-- 41_crc16.md R141 (b): flipping any single bit of the input span changes what CRC.SPAN delivers. -/
def Obligations.CrcSeesEverySingleBit : Prop :=
  ∀ (s t u : State) (k j : Nat), k < s.ibuf.length → j < 8 →
    exec .crcSpan s = .next t → exec .crcSpan (s.loadSpan (flipBit s.ibuf k j)) = .next u →
      u.r[0] ≠ t.r[0] ∧ u.obuf ≠ t.obuf ∧ u.crcAcc ≠ t.crcAcc

/-! ### Whitening (42_whitening.md) -/

/-- 42_whitening.md R151, R158, R159: PN9.SEED loads 0x1FF; PN9.BIT emits the top bit, shifts left and
inserts the exclusive-or of taps 8 and 3; the bits obey the recurrence of x^9 + x^5 + 1. -/
def Obligations.Pn9BitResults : Prop :=
  (∀ s : State,
    exec .pn9Seed s = .next { s with pn9 := 0x1FF#9, status := statusOk s.status } ∧
    ∃ S : BitVec 9,
      exec .pn9Bit s = .next
        { s with
          r := s.r.set 0 (if s.pn9.getLsbD 8 then 1 else 0)
          pn9 := S
          status := statusOk s.status } ∧
      S.getLsbD 0 = (s.pn9.getLsbD 8 ^^ s.pn9.getLsbD 3) ∧
      ∀ k < 8, S.getLsbD (k + 1) = s.pn9.getLsbD k) ∧
  (∀ (S : BitVec 9) (n : Nat), pn9Output S (n + 9) = (pn9Output S n ^^ pn9Output S (n + 5)))

/-- 42_whitening.md R152, R160: PN9.BYTE is eight PN9.BIT commands whose results, the first at bit 0, make
the byte. -/
def Obligations.Pn9ByteIsEightBits : Prop :=
  ∀ s : State, ∃ t bits,
    drawBits 8 s [] = (.next t, bits) ∧ bits.length = 8 ∧
      exec .pn9Byte s = .next
        { t with r := t.r.set 0 (bits.foldr (fun bit above => bit + 2 * above) 0) }

/-- 42_whitening.md R156, R161: WHITEN re-seeds, meets each input byte with its keystream byte, and leaves
the register 8 advances per byte from the seed. -/
def Obligations.WhitenResult : Prop :=
  ∀ s : State, ∃ out,
    exec .whiten s = .next
      { s with
        obuf := out
        pn9 := pn9Iterate (8 * s.ibuf.length) 0x1FF#9
        status := statusOk s.status } ∧
    out.length = s.ibuf.length ∧ (pn9Key s.ibuf.length).length = s.ibuf.length ∧
    ∀ i b k, readByte s.ibuf i = some b → readByte (pn9Key s.ibuf.length) i = some k →
      readByte out i = some (b ^^^ k)

/-- 42_whitening.md R157: WHITEN, XFER, WHITEN restores the input span. -/
def Obligations.WhitenIsInvolution : Prop :=
  ∀ s : State, ∃ t u v,
    exec .whiten s = .next t ∧ exec .xfer t = .next u ∧ exec .whiten u = .next v ∧ v.obuf = s.ibuf

/-- 42_whitening.md R154: the right-shifting generator on the reversed register gives the same keystream. -/
def Obligations.MirroredGeneratorSameKeystream : Prop :=
  (∀ (n : Nat) (S : BitVec 9), pn9KeyFrom n S = mirrorKeyFrom n (pn9Mirror S)) ∧
  (∀ n : Nat, pn9Key n = mirrorKeyFrom n 0x1FF#9) ∧
  (∀ S : BitVec 9, pn9Mirror (pn9Step S).1 = mirrorStep (pn9Mirror S))

/-- 42_whitening.md R155: the register has period exactly 511 in bits and in bytes, visits every nonzero
value and never holds 0; 0 would stay 0, and no command puts it there. -/
def Obligations.Pn9PeriodIs511 : Prop :=
  (∀ n, pn9Iterate n 0x1FF#9 = 0x1FF#9 ↔ 511 ∣ n) ∧
  (∀ n, pn9After n 0x1FF#9 = 0x1FF#9 ↔ 511 ∣ n) ∧
  (∀ n, pn9Iterate n 0x1FF#9 ≠ 0) ∧
  (∀ S : BitVec 9, S ≠ 0 → ∃ n < 511, pn9Iterate n 0x1FF#9 = S) ∧
  (∀ n, pn9Iterate n 0 = 0) ∧
  (∀ (i : Instr) (s t : State), s.pn9 ≠ 0 → exec i s = .next t → t.pn9 ≠ 0)

/-! ### FEC (43_fec.md) -/

/-- 43_fec.md R173: FEC.ENCODE writes what the code gives, `FEC_GROUP` bytes per input byte, or raises
Length(OUTPUT_SPAN) where that exceeds `BUF_CAP`; the model fixes both at their defaults (log entries 2
and 3), which the statement does not name, and carries the length law in the code's type (log entry 4). -/
def Obligations.FecEncodeResult : Prop :=
  ∀ s : State,
    (Config.fecGroup * s.ibuf.length ≤ Config.bufCap →
      exec .fecEncode s = .next
        { s with
          obuf := (Config.fecCode.encode s.ibuf).toList
          status := statusOk s.status } ∧
      (Config.fecCode.encode s.ibuf).toList.length = Config.fecGroup * s.ibuf.length) ∧
    (Config.bufCap < Config.fecGroup * s.ibuf.length →
      exec .fecEncode s = .next { s with status := statusRaise s.status ⟨.length, .outputSpan⟩ })

/-- 43_fec.md R175, R176: FEC.NEW goes to UNPRIMED from every phase; FEC.PRIME primes an
unprimed decoder and refuses a primed one. That FEC.NEW keeps `FEC_HIST` is the model's choice (log
entry 14): the spec leaves the value unobservable. -/
def Obligations.FecNewAndPrimeResults : Prop :=
  ∀ s : State,
    exec .fecNew s = .next { s with fecPhase := .unprimed, status := statusOk s.status } ∧
    (s.fecPhase = .unprimed →
      exec .fecPrime s = .next
        { s with
          fecHist := Config.fecCode.hist0
          fecPhase := .primedEmpty
          obuf := []
          status := statusOk s.status }) ∧
    (s.fecPhase ≠ .unprimed →
      exec .fecPrime s = .next { s with status := statusRaise s.status ⟨.desync, .sequence⟩ })

/-- 43_fec.md R177, for every code, the machine's own among them: a chunk the code accepts advances the
history; every other submission is a Desync that leaves the decoder as it was. The code as an argument is
the model's form of the parameter (log entry 4); the chunk size is its default (log entry 3), which the
statement does not name. -/
def Obligations.FecSubmitResult : Prop :=
  ∀ s : State,
    let desync (field : FieldCode) := { s with status := statusRaise s.status ⟨.desync, field⟩ }
    exec .fecSubmit s = .next (fecSubmitWith Config.fecCode s) ∧
    (s.fecPhase = .unprimed → exec .fecSubmit s = .next (desync .sequence)) ∧
    (s.fecPhase ≠ .unprimed → s.ibuf.length ≠ Config.fecGroup →
      exec .fecSubmit s = .next (desync .chunk)) ∧
    (s.fecPhase ≠ .unprimed → s.ibuf.length = Config.fecGroup → ∀ code : FecCode,
      (∀ h out, code.step s.fecHist s.ibuf = some (h, out) →
        fecSubmitWith code s =
          { s with
            fecHist := h
            fecPhase := .accepting
            obuf := out.val
            status := statusOk s.status }) ∧
      (code.step s.fecHist s.ibuf = none → fecSubmitWith code s = desync .chunk))

/-- 43_fec.md R174, "Transitions, and no others": the phase changes only by FEC.NEW and SRESET to UNPRIMED,
by FEC.PRIME from UNPRIMED to PRIMED_EMPTY, and by FEC.SUBMIT from a primed phase to ACCEPTING. -/
def Obligations.FecPhaseTransitions : Prop :=
  ∀ (i : Instr) (s t : State), exec i s = .next t → t.fecPhase ≠ s.fecPhase →
    ((i = .fecNew ∨ i = .sreset) ∧ t.fecPhase = .unprimed) ∨
    (i = .fecPrime ∧ s.fecPhase = .unprimed ∧ t.fecPhase = .primedEmpty) ∨
    (i = .fecSubmit ∧ s.fecPhase = .primedEmpty ∧ t.fecPhase = .accepting)

/-- 43_fec.md R180: the stand-in code obeys L2 and L4 (L1 and L3 are in its type), corrects any corruption
of one byte of a chunk, and rejects a bit that is split two against two. -/
def Obligations.FecTestObeysTheLaws : Prop :=
  SoundOnCleanInput fecTest ∧ ZeroLatency fecTest ∧
  (∀ (h : FecHist) (b c : Byte) (k : Nat), k < 4 →
    ∃ out, fecTest.step h ([b, b, b, b].set k c) = some (h, out) ∧ out.val = [b]) ∧
  (∀ (h : FecHist) (chunk : Span) (j : Nat), j < 8 → bitVotes chunk j = 2 →
    fecTest.step h chunk = none)

/-! ### Addressed header (44_addressed_header.md) -/

/-- 44_addressed_header.md R192: the four bytes ATH.PACK writes, flags always 0, or the first field out of
range. -/
def Obligations.AthPackResult : Prop :=
  ∀ s : State,
    (OperandsInRange .athPack s →
      exec .athPack s = .next
        { s with
          obuf := [BitVec.ofInt 8 (s.arg 0 * 64 + s.arg 1 * 2 + s.arg 2 / 16),
            BitVec.ofInt 8 (s.arg 2 % 16 * 16 + s.arg 3 / 4),
            BitVec.ofInt 8 (s.arg 3 % 4 * 64 + s.arg 4), 0]
          status := statusOk s.status }) ∧
    RaisesFirstRangeError .athPack s

/-- 44_addressed_header.md R193: ATH.UNPACK takes the five fields of four bytes; byte 3 is ignored. -/
def Obligations.AthUnpackResult : Prop :=
  ∀ s : State,
    (∀ b₀ b₁ b₂ b₃ : Byte, s.ibuf = [b₀, b₁, b₂, b₃] →
      exec .athUnpack s = .next
        { s with
          r := ((((s.r.set 0 (BitVec.ofNat 64 (b₀.toNat / 64))).set 1
            (BitVec.ofNat 64 (b₀.toNat / 2 % 32))).set 2
            (BitVec.ofNat 64 (b₀.toNat % 2 * 16 + b₁.toNat / 16))).set 3
            (BitVec.ofNat 64 (b₁.toNat % 16 * 4 + b₂.toNat / 64))).set 4
            (BitVec.ofNat 64 (b₂.toNat % 64))
          status := statusOk s.status }) ∧
    (s.ibuf.length ≠ 4 →
      exec .athUnpack s = .next { s with status := statusRaise s.status ⟨.length, .inputSpan⟩ })

/-- 44_addressed_header.md R194: ATH.UNPACK undoes ATH.PACK; ATH.PACK rewrites what ATH.UNPACK read with
byte 3 forced to 0. -/
def Obligations.AddressedHeaderRoundTrip : Prop :=
  ∀ s : State,
    (OperandsInRange .athPack s →
      ∃ t u v, exec .athPack s = .next t ∧ exec .xfer t = .next u ∧ exec .athUnpack u = .next v ∧
        ∀ k : Fin 8, k.val < 5 → v.r[k] = s.a[k]) ∧
    (∀ b₀ b₁ b₂ b₃ : Byte, s.ibuf = [b₀, b₁, b₂, b₃] →
      ∃ t u, exec .athUnpack s = .next t ∧ exec .athPack t.argsFromResults = .next u ∧
        u.obuf = [b₀, b₁, b₂, 0])

/-! ### Client packet (45_client_packet.md) -/

/-- 45_client_packet.md R202: the seven bytes CPH.PACK writes, or the first field out of range. -/
def Obligations.CphPackResult : Prop :=
  ∀ s : State,
    (OperandsInRange .cphPack s →
      exec .cphPack s = .next
        { s with
          obuf := [BitVec.ofInt 8 (s.arg 0), BitVec.ofInt 8 (s.arg 1),
            BitVec.ofInt 8 (s.arg 1 / 256), BitVec.ofInt 8 (s.arg 2),
            BitVec.ofInt 8 (s.arg 2 / 256), BitVec.ofInt 8 (s.arg 3), BitVec.ofInt 8 (s.arg 4)]
          status := statusOk s.status }) ∧
    RaisesFirstRangeError .cphPack s

/-- 45_client_packet.md R203: CPH.UNPACK reads exactly seven bytes whose length byte is legal. -/
def Obligations.CphUnpackResult : Prop :=
  ∀ s : State,
    (∀ b₀ b₁ b₂ b₃ b₄ b₅ b₆ : Byte, s.ibuf = [b₀, b₁, b₂, b₃, b₄, b₅, b₆] →
      (6 ≤ b₀.toNat ∧ b₀.toNat ≤ 251 →
        exec .cphUnpack s = .next
          { s with
            r := ((((s.r.set 0 (BitVec.ofNat 64 b₀.toNat)).set 1
              (BitVec.ofNat 64 (b₁.toNat + 256 * b₂.toNat))).set 2
              (BitVec.ofNat 64 (b₃.toNat + 256 * b₄.toNat))).set 3
              (BitVec.ofNat 64 b₅.toNat)).set 4 (BitVec.ofNat 64 b₆.toNat)
            status := statusOk s.status }) ∧
      (¬ (6 ≤ b₀.toNat ∧ b₀.toNat ≤ 251) →
        exec .cphUnpack s = .next { s with status := statusRaise s.status ⟨.range, .length⟩ })) ∧
    (s.ibuf.length ≠ 7 →
      exec .cphUnpack s = .next { s with status := statusRaise s.status ⟨.length, .inputSpan⟩ })

/-- 45_client_packet.md R204: the frame CP.PACK writes and the length it computes, or the first error, the
computed length first. -/
def Obligations.CpPackResult : Prop :=
  ∀ s : State,
    (OperandsInRange .cpPack s →
      exec .cpPack s = .next
        { s with
          obuf := [BitVec.ofNat 8 (s.ibuf.length + 6), BitVec.ofInt 8 (s.arg 1),
            BitVec.ofInt 8 (s.arg 1 / 256), BitVec.ofInt 8 (s.arg 2),
            BitVec.ofInt 8 (s.arg 2 / 256), BitVec.ofInt 8 (s.arg 3),
            BitVec.ofInt 8 (s.arg 4)] ++ s.ibuf
          r := s.r.set 0 (BitVec.ofNat 64 (s.ibuf.length + 6))
          status := statusOk s.status }) ∧
    RaisesFirstRangeError .cpPack s

/-- 45_client_packet.md R205: CP.UNPACK delivers the fields and the payload of a consistent frame; the
checks go Length, Range, Integrity. -/
def Obligations.CpUnpackResult : Prop :=
  ∀ s : State,
    (∀ (b₀ b₁ b₂ b₃ b₄ b₅ b₆ : Byte) (p : Span),
      s.ibuf = [b₀, b₁, b₂, b₃, b₄, b₅, b₆] ++ p →
      (6 ≤ b₀.toNat ∧ b₀.toNat ≤ 251 → b₀.toNat = 7 + p.length - 1 →
        exec .cpUnpack s = .next
          { s with
            r := ((((s.r.set 0 (BitVec.ofNat 64 b₀.toNat)).set 1
              (BitVec.ofNat 64 (b₁.toNat + 256 * b₂.toNat))).set 2
              (BitVec.ofNat 64 (b₃.toNat + 256 * b₄.toNat))).set 3
              (BitVec.ofNat 64 b₅.toNat)).set 4 (BitVec.ofNat 64 b₆.toNat)
            obuf := p
            status := statusOk s.status }) ∧
      (6 ≤ b₀.toNat ∧ b₀.toNat ≤ 251 → b₀.toNat ≠ 7 + p.length - 1 →
        exec .cpUnpack s = .next
          { s with status := statusRaise s.status ⟨.integrity, .length⟩ }) ∧
      (¬ (6 ≤ b₀.toNat ∧ b₀.toNat ≤ 251) →
        exec .cpUnpack s = .next { s with status := statusRaise s.status ⟨.range, .length⟩ })) ∧
    (s.ibuf.length < 7 →
      exec .cpUnpack s = .next { s with status := statusRaise s.status ⟨.length, .inputSpan⟩ })

/-- 45_client_packet.md R206: CP.UNPACK undoes CP.PACK for every payload and fields it accepts, and CP.PACK
rewrites the frame that CP.UNPACK was given. -/
def Obligations.ClientPacketRoundTrip : Prop :=
  ∀ s : State,
    (OperandsInRange .cpPack s →
      ∃ t u v, exec .cpPack s = .next t ∧ exec .xfer t = .next u ∧ exec .cpUnpack u = .next v ∧
        statusKind v.status = 0 ∧ v.obuf = s.ibuf ∧
        v.r[0] = BitVec.ofNat 64 (s.ibuf.length + 6) ∧
        ∀ k : Fin 8, 1 ≤ k.val → k.val ≤ 4 → v.r[k] = s.a[k]) ∧
    (∀ t, exec .cpUnpack s = .next t → statusKind t.status = 0 →
      ∃ u v, exec .xfer t.argsFromResults = .next u ∧ exec .cpPack u = .next v ∧
        v.obuf = s.ibuf)

/-! ### Space packet (46_space_packet.md) -/

/-- 46_space_packet.md R222: the six bytes SPH.PACK writes, or the first field out of range. -/
def Obligations.SphPackResult : Prop :=
  ∀ s : State,
    (OperandsInRange .sphPack s →
      exec .sphPack s = .next
        { s with
          obuf := [BitVec.ofInt 8 (s.arg 0), BitVec.ofInt 8 (s.arg 1), BitVec.ofInt 8 (s.arg 2),
            BitVec.ofInt 8 (s.arg 2 / 256), BitVec.ofInt 8 (s.arg 3), BitVec.ofInt 8 (s.arg 4)]
          status := statusOk s.status }) ∧
    RaisesFirstRangeError .sphPack s

/-- 46_space_packet.md R223: SPH.UNPACK reads exactly six bytes whose length and port bytes are legal. -/
def Obligations.SphUnpackResult : Prop :=
  ∀ s : State,
    (∀ b₀ b₁ b₂ b₃ b₄ b₅ : Byte, s.ibuf = [b₀, b₁, b₂, b₃, b₄, b₅] →
      (10 ≤ b₀.toNat ∧ b₀.toNat ≤ 251 → b₁.toNat ≤ 1 →
        exec .sphUnpack s = .next
          { s with
            r := ((((s.r.set 0 (BitVec.ofNat 64 b₀.toNat)).set 1
              (BitVec.ofNat 64 b₁.toNat)).set 2
              (BitVec.ofNat 64 (b₂.toNat + 256 * b₃.toNat))).set 3
              (BitVec.ofNat 64 b₄.toNat)).set 4 (BitVec.ofNat 64 b₅.toNat)
            status := statusOk s.status }) ∧
      (¬ (10 ≤ b₀.toNat ∧ b₀.toNat ≤ 251) →
        exec .sphUnpack s = .next { s with status := statusRaise s.status ⟨.range, .length⟩ }) ∧
      (10 ≤ b₀.toNat ∧ b₀.toNat ≤ 251 → 1 < b₁.toNat →
        exec .sphUnpack s = .next { s with status := statusRaise s.status ⟨.range, .port⟩ })) ∧
    (s.ibuf.length ≠ 6 →
      exec .sphUnpack s = .next { s with status := statusRaise s.status ⟨.length, .inputSpan⟩ })

/-- 46_space_packet.md R226, R227: the footer codec, hardware_id and then the CRC, each low byte first. -/
def Obligations.FooterCodecResults : Prop :=
  ∀ s : State,
    (OperandsInRange .spfPack s →
      exec .spfPack s = .next
        { s with
          obuf := [BitVec.ofInt 8 (s.arg 5), BitVec.ofInt 8 (s.arg 5 / 256),
            BitVec.ofInt 8 (s.arg 6), BitVec.ofInt 8 (s.arg 6 / 256)]
          status := statusOk s.status }) ∧
    RaisesFirstRangeError .spfPack s ∧
    (∀ b₀ b₁ b₂ b₃ : Byte, s.ibuf = [b₀, b₁, b₂, b₃] →
      exec .spfUnpack s = .next
        { s with
          r := (s.r.set 5 (BitVec.ofNat 64 (b₀.toNat + 256 * b₁.toNat))).set 6
            (BitVec.ofNat 64 (b₂.toNat + 256 * b₃.toNat))
          status := statusOk s.status }) ∧
    (s.ibuf.length ≠ 4 →
      exec .spfUnpack s = .next { s with status := statusRaise s.status ⟨.length, .inputSpan⟩ })

/-- 46_space_packet.md R228: the frame SP.PACK writes, the length and CRC it computes (by the document's
own algorithm over header and payload), or the first error, the computed length first. -/
def Obligations.SpPackResult : Prop :=
  ∀ s : State,
    (OperandsInRange .spPack s →
      let header := [BitVec.ofNat 8 (s.ibuf.length + 10), BitVec.ofInt 8 (s.arg 1),
        BitVec.ofInt 8 (s.arg 2), BitVec.ofInt 8 (s.arg 2 / 256), BitVec.ofInt 8 (s.arg 3),
        BitVec.ofInt 8 (s.arg 4)]
      let c := crcDocument (header ++ s.ibuf)
      exec .spPack s = .next
        { s with
          obuf := header ++ s.ibuf ++ [BitVec.ofInt 8 (s.arg 5), BitVec.ofInt 8 (s.arg 5 / 256),
            BitVec.ofNat 8 c, BitVec.ofNat 8 (c / 256)]
          r := (s.r.set 0 (BitVec.ofNat 64 (s.ibuf.length + 10))).set 6 (BitVec.ofNat 64 c)
          crcAcc := BitVec.ofNat 16 c
          status := statusOk s.status }) ∧
    RaisesFirstRangeError .spPack s

/-- 46_space_packet.md R230: SP.UNPACK delivers the fields, the payload and the CRC of a frame that passes;
the checks go Length, Range of the length, Range of the port, Integrity, Checksum. -/
def Obligations.SpUnpackResult : Prop :=
  ∀ s : State,
    let raises (kind : ErrorKind) (field : FieldCode) :=
      exec .spUnpack s = .next { s with status := statusRaise s.status ⟨kind, field⟩ }
    (s.ibuf.length < 10 → raises .length .inputSpan) ∧
    (∀ (b₀ b₁ b₂ b₃ b₄ b₅ h₀ h₁ c₀ c₁ : Byte) (p : Span),
      s.ibuf = [b₀, b₁, b₂, b₃, b₄, b₅] ++ p ++ [h₀, h₁, c₀, c₁] →
      let lengthLegal := 10 ≤ b₀.toNat ∧ b₀.toNat ≤ 251
      let consistent := b₀.toNat = p.length + 10
      let stored := c₀.toNat + 256 * c₁.toNat
      let computed := crcDocument ([b₀, b₁, b₂, b₃, b₄, b₅] ++ p)
      (¬ lengthLegal → raises .range .length) ∧
      (lengthLegal → 1 < b₁.toNat → raises .range .port) ∧
      (lengthLegal → b₁.toNat ≤ 1 → ¬ consistent → raises .integrity .length) ∧
      (lengthLegal → b₁.toNat ≤ 1 → consistent → stored ≠ computed → raises .checksum .crc) ∧
      (lengthLegal → b₁.toNat ≤ 1 → consistent → stored = computed →
        exec .spUnpack s = .next
          { s with
            r := ((((((s.r.set 0 (BitVec.ofNat 64 b₀.toNat)).set 1
              (BitVec.ofNat 64 b₁.toNat)).set 2
              (BitVec.ofNat 64 (b₂.toNat + 256 * b₃.toNat))).set 3
              (BitVec.ofNat 64 b₄.toNat)).set 4 (BitVec.ofNat 64 b₅.toNat)).set 5
              (BitVec.ofNat 64 (h₀.toNat + 256 * h₁.toNat))).set 6 (BitVec.ofNat 64 stored)
            obuf := p
            crcAcc := BitVec.ofNat 16 computed
            status := statusOk s.status }))

/-- 46_space_packet.md R231: SP.UNPACK undoes SP.PACK for every payload and fields it accepts. -/
def Obligations.SpacePacketRoundTrip : Prop :=
  ∀ s : State, OperandsInRange .spPack s →
    ∃ t u v, exec .spPack s = .next t ∧ exec .xfer t = .next u ∧ exec .spUnpack u = .next v ∧
      statusKind v.status = 0 ∧ v.obuf = s.ibuf ∧
      v.r[0] = BitVec.ofNat 64 (s.ibuf.length + 10) ∧ v.r[6] = t.r[6] ∧
      ∀ k : Fin 8, 1 ≤ k.val → k.val ≤ 5 → v.r[k] = s.a[k]

/-- 46_space_packet.md R232: after any change of one byte before the footer of a frame that SP.PACK wrote,
SP.UNPACK raises Checksum(CRC), unless the byte is the length byte (Range or Integrity) or the port byte
changed to no port (Range). -/
def Obligations.ChangedByteIsDetected : Prop :=
  ∀ (s t : State) (k : Nat) (old new : Byte), OperandsInRange .spPack s →
    exec .spPack s = .next t → k + 4 < t.obuf.length → readByte t.obuf k = some old → new ≠ old →
      let u := t.loadSpan (t.obuf.set k new)
      let raises (kind : ErrorKind) (field : FieldCode) :=
        exec .spUnpack u = .next { u with status := statusRaise u.status ⟨kind, field⟩ }
      if k = 0 then
        if 10 ≤ new.toNat ∧ new.toNat ≤ 251 then raises .integrity .length
        else raises .range .length
      else if k = 1 ∧ 1 < new.toNat then raises .range .port
      else raises .checksum .crc

/-! ### The link chain (48_link_chain.md) -/

/-- 48_link_chain.md R265: for a code that obeys L2 and L4, the receive chain undoes the transmit chain for
every payload and fields that SP.PACK accepts, and no command in either raises an error. The code as an
argument, with L1 and L3 in its type, is the model's form of the parameter (log entry 4). -/
def Obligations.LinkChainIsIdentity : Prop :=
  ∀ (code : FecCode) (s s' : State), SoundOnCleanInput code → ZeroLatency code →
    OperandsInRange .spPack s → statusSticky s.status = 0 → statusSticky s'.status = 0 →
      ∃ t u, transmitChain code s = .next t ∧ receiveChain code t.obuf s' = .next u ∧
        statusSticky t.status = 0 ∧ statusSticky u.status = 0 ∧ statusKind u.status = 0 ∧
        u.obuf = s.ibuf ∧ ∀ k : Fin 8, 1 ≤ k.val → k.val ≤ 5 → u.r[k] = s.a[k]
end

