-- ==== Sys2Proof/Laws/Flags.lean ====
section
/-! SUPPORT. The fields of a `STATUS` word after each way of writing it. -/

namespace Sys2Proof.Machine

variable (reserved : BitVec 7) (sticky : BitVec 1) (field : BitVec 5) (kind : BitVec 3)

@[simp] theorem statusKind_statusPack :
    statusKind (statusPack reserved sticky field kind) = kind := by
  ext i hi
  simp only [statusKind, statusPack, BitVec.getElem_extractLsb', BitVec.getLsbD_append]
  simp [hi, ← BitVec.getLsbD_eq_getElem]

@[simp] theorem statusField_statusPack :
    statusField (statusPack reserved sticky field kind) = field := by
  ext i hi
  simp only [statusField, statusPack, BitVec.getElem_extractLsb', BitVec.getLsbD_append]
  simp [show ¬ 3 + i < 3 by omega, show 3 + i - 3 = i by omega, hi, ← BitVec.getLsbD_eq_getElem]

@[simp] theorem statusSticky_statusPack :
    statusSticky (statusPack reserved sticky field kind) = sticky := by
  ext i hi
  simp only [statusSticky, statusPack, BitVec.getElem_extractLsb', BitVec.getLsbD_append]
  simp [show ¬ 8 + i < 3 by omega, show ¬ 8 + i - 3 < 5 by omega,
    show 8 + i - 3 - 5 = i by omega, hi, ← BitVec.getLsbD_eq_getElem]

@[simp] theorem statusReserved_statusPack :
    statusReserved (statusPack reserved sticky field kind) = reserved := by
  ext i hi
  simp only [statusReserved, statusPack, BitVec.getElem_extractLsb', BitVec.getLsbD_append]
  simp [show ¬ 9 + i < 3 by omega, show ¬ 9 + i - 3 < 5 by omega,
    show ¬ 9 + i - 3 - 5 < 1 by omega, show 9 + i - 3 - 5 - 1 = i by omega,
    ← BitVec.getLsbD_eq_getElem]

variable (w : BitVec 16) (e : CmdError)

@[simp] theorem statusKind_statusOk : statusKind (statusOk w) = 0 := by simp [statusOk]

@[simp] theorem statusField_statusOk : statusField (statusOk w) = 0 := by simp [statusOk]

@[simp] theorem statusSticky_statusOk : statusSticky (statusOk w) = statusSticky w := by
  simp [statusOk]

@[simp] theorem statusReserved_statusOk : statusReserved (statusOk w) = statusReserved w := by
  simp [statusOk]

@[simp] theorem statusKind_statusRaise : statusKind (statusRaise w e) = kindCode e.kind := by
  simp [statusRaise]

@[simp] theorem statusField_statusRaise : statusField (statusRaise w e) = fieldCode e.field := by
  simp [statusRaise]

@[simp] theorem statusSticky_statusRaise : statusSticky (statusRaise w e) = 1 := by
  simp [statusRaise]

@[simp] theorem statusReserved_statusRaise :
    statusReserved (statusRaise w e) = statusReserved w := by
  simp [statusRaise]

@[simp] theorem statusSticky_statusRead : statusSticky (statusRead w) = statusSticky w := by
  simp [statusRead]

@[simp] theorem statusField_statusRead : statusField (statusRead w) = statusField w := by
  simp [statusRead]

@[simp] theorem statusKind_statusRead : statusKind (statusRead w) = statusKind w := by
  simp [statusRead]

@[simp] theorem statusReserved_statusRead : statusReserved (statusRead w) = 0 := by
  simp [statusRead]

/-- A `STATUS` word is its four fields: words that agree on each are equal. -/
theorem statusPack_fields (w : BitVec 16) :
    statusPack (statusReserved w) (statusSticky w) (statusField w) (statusKind w) = w := by
  apply BitVec.eq_of_getLsbD_eq
  intro i hi
  simp only [statusPack, statusReserved, statusSticky, statusField, statusKind,
    BitVec.getLsbD_append, BitVec.getLsbD_extractLsb']
  split
  · simp [*]
  · split
    · rename_i h₁ h₂
      simp [h₂, show 3 + (i - 3) = i by omega]
    · split
      · rename_i h₁ h₂ h₃
        simp [h₃, show 8 + (i - 3 - 5) = i by omega]
      · rename_i h₁ h₂ h₃
        simp [show i - 3 - 5 - 1 < 7 by omega, show 9 + (i - 3 - 5 - 1) = i by omega]

/-- No error has the kind code of a success (10_state.md R24). -/
theorem kindCode_ne_zero (k : ErrorKind) : kindCode k ≠ 0 := by cases k <;> decide

/-- No field has the code of NONE (60_exceptions.md R276). -/
theorem fieldCode_ne_zero (f : FieldCode) : fieldCode f ≠ 0 := by cases f <;> decide

/-- Error kinds are distinguishable by their codes (60_exceptions.md R270). -/
theorem kindCode_injective : Function.Injective kindCode := by
  intro x y h; cases x <;> cases y <;> first | rfl | exact absurd h (by decide)

/-- Fields are distinguishable by their codes (60_exceptions.md R276). -/
theorem fieldCode_injective : Function.Injective fieldCode := by
  intro x y h; cases x <;> cases y <;> first | rfl | exact absurd h (by decide)

/-- Phases are distinguishable by their codes (10_state.md R29). -/
theorem phaseCode_injective : Function.Injective phaseCode := by
  intro x y h; cases x <;> cases y <;> first | rfl | exact absurd h (by decide)

end Sys2Proof.Machine
end

