-- ==== Sys2Proof/Laws/Operands.lean ====
section
/-! SUPPORT. What the operand forms and the engines' functions answer, said once. -/

namespace Sys2Proof.Machine

/-! ### Checks -/

theorem rangeCheck_holds_iff (v lo hi : Int) (field : FieldCode) :
    (rangeCheck v lo hi field).holds = true ↔ lo ≤ v ∧ v ≤ hi := by simp [rangeCheck]

@[simp] theorem rangeCheck_error (v lo hi : Int) (field : FieldCode) :
    (rangeCheck v lo hi field).error = ⟨.range, field⟩ := rfl

theorem sizeIs_holds_iff (B : Span) (n : Nat) : (sizeIs B n).holds = true ↔ B.length = n := by
  simp [sizeIs]

@[simp] theorem sizeIs_error (B : Span) (n : Nat) :
    (sizeIs B n).error = ⟨.length, .inputSpan⟩ := rfl

theorem sizeAtLeast_holds_iff (B : Span) (n : Nat) :
    (sizeAtLeast B n).holds = true ↔ n ≤ B.length := by simp [sizeAtLeast]

@[simp] theorem sizeAtLeast_error (B : Span) (n : Nat) :
    (sizeAtLeast B n).error = ⟨.length, .inputSpan⟩ := rfl

/-! ### Bytes and byte order -/

theorem byteAt_lt (B : Span) (i : Nat) : byteAt B i < 256 := (B.getD i 0).isLt

theorem byteAt_of_lt (B : Span) {i : Nat} (h : i < B.length) : byteAt B i = (B[i]).toNat := by
  simp [byteAt, List.getD_eq_getElem?_getD, h]

theorem le16At_lt (B : Span) (off : Nat) : le16At B off < 65536 := by
  have h₀ := byteAt_lt B off
  have h₁ := byteAt_lt B (off + 1)
  simp only [le16At]; omega

theorem be16At_lt (B : Span) (off : Nat) : be16At B off < 65536 := by
  have h₀ := byteAt_lt B off
  have h₁ := byteAt_lt B (off + 1)
  simp only [be16At]; omega

theorem le32At_lt (B : Span) (off : Nat) : le32At B off < 2 ^ 32 := by
  have h₀ := byteAt_lt B off
  have h₁ := byteAt_lt B (off + 1)
  have h₂ := byteAt_lt B (off + 2)
  have h₃ := byteAt_lt B (off + 3)
  simp only [le32At]; omega

theorem be32At_lt (B : Span) (off : Nat) : be32At B off < 2 ^ 32 := by
  have h₀ := byteAt_lt B off
  have h₁ := byteAt_lt B (off + 1)
  have h₂ := byteAt_lt B (off + 2)
  have h₃ := byteAt_lt B (off + 3)
  simp only [be32At]; omega

@[simp] theorem le16_length (v : BitVec 16) : (le16 v).length = 2 := rfl

@[simp] theorem be16_length (v : BitVec 16) : (be16 v).length = 2 := rfl

@[simp] theorem le32_length (v : BitVec 32) : (le32 v).length = 4 := rfl

@[simp] theorem be32_length (v : BitVec 32) : (be32 v).length = 4 := rfl

@[simp] theorem memRead_length (B : Span) (off n : Nat) :
    (memRead B off n).length = min n (B.length - off) := by simp [memRead]

/-! ### Results -/

/-- The register file after consecutive writes: the listed value where one is listed, else the old one. -/
theorem writeFrom_getElem (vs : List Word) (first : Nat) (r : Vector Word 8) (k : Nat) (hk : k < 8) :
    (writeFrom first vs r)[k] =
      if h : first ≤ k ∧ k - first < vs.length then vs[k - first]'h.2 else r[k] := by
  induction vs generalizing first r with
  | nil => simp [writeFrom]
  | cons v vs ih =>
    rw [writeFrom, ih]
    by_cases h₁ : first + 1 ≤ k
    · have hsub : k - first = (k - (first + 1)) + 1 := by omega
      have hle : first ≤ k := by omega
      by_cases h₂ : k - (first + 1) < vs.length
      · simp [h₁, h₂, hle, hsub]
      · have hne : first ≠ k := by omega
        simp [h₂, hsub, hne]
    · by_cases h₂ : first = k
      · subst h₂; simp
      · have hnot : ¬ first ≤ k := by omega
        simp [h₁, hnot, h₂]

/-! ### The bitfield codec -/

@[simp] theorem bfUnpackFrom_length (W offset : Nat) (widths : List Nat) (word : BitVec W) :
    (bfUnpackFrom W offset widths word).length = widths.length := by
  induction widths generalizing offset with
  | nil => rfl
  | cons width widths ih => simp [bfUnpackFrom, ih]

/-! ### The CRC engine -/

@[simp] theorem crcFrom_nil (acc : BitVec 16) : crcFrom acc [] = acc := rfl

@[simp] theorem crcFrom_cons (acc : BitVec 16) (b : Byte) (B : Span) :
    crcFrom acc (b :: B) = crcFrom (crcByteStep acc b) B := rfl

theorem crcFrom_append (acc : BitVec 16) (B C : Span) :
    crcFrom acc (B ++ C) = crcFrom (crcFrom acc B) C := by simp [crcFrom]

@[simp] theorem crcWire_length (c : BitVec 16) : (crcWire c).length = 2 := rfl

/-! ### The whitening engine -/

@[simp] theorem pn9KeyFrom_length (n : Nat) (S : BitVec 9) : (pn9KeyFrom n S).length = n := by
  induction n generalizing S with
  | zero => rfl
  | succ n ih => simp [pn9KeyFrom, ih]

/-- WHITEN's loop: the register depends on the length only, and each byte meets its key byte. -/
theorem whitenFrom_eq (S : BitVec 9) (B : Span) :
    whitenFrom S B = (pn9After B.length S, List.zipWith (· ^^^ ·) B (pn9KeyFrom B.length S)) := by
  induction B generalizing S with
  | nil => rfl
  | cons b B ih => simp [whitenFrom, ih, pn9After, pn9KeyFrom]

@[simp] theorem whitenSpan_length (B : Span) : (whitenSpan B).length = B.length := by
  simp [whitenSpan, whitenFrom_eq]

end Sys2Proof.Machine
end

