-- ==== Sys2Proof/Laws/State.lean ====
section
/-! SUPPORT. One lemma per field per state update, so that no later proof unfolds a record update. -/

namespace Sys2Proof.Machine

variable (s : State)

/-! ### `State.memWrite` -/

@[simp] theorem State.memWrite_a (B : Span) : (s.memWrite B).a = s.a := rfl
@[simp] theorem State.memWrite_r (B : Span) : (s.memWrite B).r = s.r := rfl
@[simp] theorem State.memWrite_status (B : Span) : (s.memWrite B).status = s.status := rfl
@[simp] theorem State.memWrite_crcAcc (B : Span) : (s.memWrite B).crcAcc = s.crcAcc := rfl
@[simp] theorem State.memWrite_pn9 (B : Span) : (s.memWrite B).pn9 = s.pn9 := rfl
@[simp] theorem State.memWrite_fecPhase (B : Span) : (s.memWrite B).fecPhase = s.fecPhase := rfl
@[simp] theorem State.memWrite_fecHist (B : Span) : (s.memWrite B).fecHist = s.fecHist := rfl
@[simp] theorem State.memWrite_ibuf (B : Span) : (s.memWrite B).ibuf = s.ibuf := rfl
@[simp] theorem State.memWrite_obuf (B : Span) : (s.memWrite B).obuf = B := rfl
@[simp] theorem State.memWrite_pending (B : Span) : (s.memWrite B).pending = s.pending := rfl
@[simp] theorem State.memWrite_cp (B : Span) : (s.memWrite B).cp = s.cp := rfl
@[simp] theorem State.memWrite_replies (B : Span) : (s.memWrite B).replies = s.replies := rfl
@[simp] theorem State.memWrite_freeCount (B : Span) : (s.memWrite B).freeCount = s.freeCount := rfl

/-! ### `State.loadSpan` -/

@[simp] theorem State.loadSpan_a (B : Span) : (s.loadSpan B).a = s.a := rfl
@[simp] theorem State.loadSpan_r (B : Span) : (s.loadSpan B).r = s.r := rfl
@[simp] theorem State.loadSpan_status (B : Span) : (s.loadSpan B).status = s.status := rfl
@[simp] theorem State.loadSpan_crcAcc (B : Span) : (s.loadSpan B).crcAcc = s.crcAcc := rfl
@[simp] theorem State.loadSpan_pn9 (B : Span) : (s.loadSpan B).pn9 = s.pn9 := rfl
@[simp] theorem State.loadSpan_fecPhase (B : Span) : (s.loadSpan B).fecPhase = s.fecPhase := rfl
@[simp] theorem State.loadSpan_fecHist (B : Span) : (s.loadSpan B).fecHist = s.fecHist := rfl
@[simp] theorem State.loadSpan_ibuf (B : Span) : (s.loadSpan B).ibuf = B := rfl
@[simp] theorem State.loadSpan_obuf (B : Span) : (s.loadSpan B).obuf = s.obuf := rfl
@[simp] theorem State.loadSpan_pending (B : Span) : (s.loadSpan B).pending = s.pending := rfl
@[simp] theorem State.loadSpan_cp (B : Span) : (s.loadSpan B).cp = s.cp := rfl
@[simp] theorem State.loadSpan_replies (B : Span) : (s.loadSpan B).replies = s.replies := rfl
@[simp] theorem State.loadSpan_freeCount (B : Span) : (s.loadSpan B).freeCount = s.freeCount := rfl

/-! ### `State.setA` -/

@[simp] theorem State.setA_a (i : Fin 8) (v : Word) : (s.setA i v).a = s.a.set i v := rfl
@[simp] theorem State.setA_r (i : Fin 8) (v : Word) : (s.setA i v).r = s.r := rfl
@[simp] theorem State.setA_status (i : Fin 8) (v : Word) : (s.setA i v).status = s.status := rfl
@[simp] theorem State.setA_crcAcc (i : Fin 8) (v : Word) : (s.setA i v).crcAcc = s.crcAcc := rfl
@[simp] theorem State.setA_pn9 (i : Fin 8) (v : Word) : (s.setA i v).pn9 = s.pn9 := rfl
@[simp] theorem State.setA_fecPhase (i : Fin 8) (v : Word) : (s.setA i v).fecPhase = s.fecPhase := rfl
@[simp] theorem State.setA_fecHist (i : Fin 8) (v : Word) : (s.setA i v).fecHist = s.fecHist := rfl
@[simp] theorem State.setA_ibuf (i : Fin 8) (v : Word) : (s.setA i v).ibuf = s.ibuf := rfl
@[simp] theorem State.setA_obuf (i : Fin 8) (v : Word) : (s.setA i v).obuf = s.obuf := rfl
@[simp] theorem State.setA_pending (i : Fin 8) (v : Word) : (s.setA i v).pending = s.pending := rfl
@[simp] theorem State.setA_cp (i : Fin 8) (v : Word) : (s.setA i v).cp = s.cp := rfl
@[simp] theorem State.setA_replies (i : Fin 8) (v : Word) : (s.setA i v).replies = s.replies := rfl
@[simp] theorem State.setA_freeCount (i : Fin 8) (v : Word) : (s.setA i v).freeCount = s.freeCount := rfl

/-! ### `State.setR` -/

@[simp] theorem State.setR_a (i : Fin 8) (v : Word) : (s.setR i v).a = s.a := rfl
@[simp] theorem State.setR_r (i : Fin 8) (v : Word) : (s.setR i v).r = s.r.set i v := rfl
@[simp] theorem State.setR_status (i : Fin 8) (v : Word) : (s.setR i v).status = s.status := rfl
@[simp] theorem State.setR_crcAcc (i : Fin 8) (v : Word) : (s.setR i v).crcAcc = s.crcAcc := rfl
@[simp] theorem State.setR_pn9 (i : Fin 8) (v : Word) : (s.setR i v).pn9 = s.pn9 := rfl
@[simp] theorem State.setR_fecPhase (i : Fin 8) (v : Word) : (s.setR i v).fecPhase = s.fecPhase := rfl
@[simp] theorem State.setR_fecHist (i : Fin 8) (v : Word) : (s.setR i v).fecHist = s.fecHist := rfl
@[simp] theorem State.setR_ibuf (i : Fin 8) (v : Word) : (s.setR i v).ibuf = s.ibuf := rfl
@[simp] theorem State.setR_obuf (i : Fin 8) (v : Word) : (s.setR i v).obuf = s.obuf := rfl
@[simp] theorem State.setR_pending (i : Fin 8) (v : Word) : (s.setR i v).pending = s.pending := rfl
@[simp] theorem State.setR_cp (i : Fin 8) (v : Word) : (s.setR i v).cp = s.cp := rfl
@[simp] theorem State.setR_replies (i : Fin 8) (v : Word) : (s.setR i v).replies = s.replies := rfl
@[simp] theorem State.setR_freeCount (i : Fin 8) (v : Word) : (s.setR i v).freeCount = s.freeCount := rfl

/-! ### `State.setResults` -/

@[simp] theorem State.setResults_a (first : Nat) (vs : List Word) : (s.setResults first vs).a = s.a := rfl
@[simp] theorem State.setResults_r (first : Nat) (vs : List Word) : (s.setResults first vs).r = writeFrom first vs s.r := rfl
@[simp] theorem State.setResults_status (first : Nat) (vs : List Word) : (s.setResults first vs).status = s.status := rfl
@[simp] theorem State.setResults_crcAcc (first : Nat) (vs : List Word) : (s.setResults first vs).crcAcc = s.crcAcc := rfl
@[simp] theorem State.setResults_pn9 (first : Nat) (vs : List Word) : (s.setResults first vs).pn9 = s.pn9 := rfl
@[simp] theorem State.setResults_fecPhase (first : Nat) (vs : List Word) : (s.setResults first vs).fecPhase = s.fecPhase := rfl
@[simp] theorem State.setResults_fecHist (first : Nat) (vs : List Word) : (s.setResults first vs).fecHist = s.fecHist := rfl
@[simp] theorem State.setResults_ibuf (first : Nat) (vs : List Word) : (s.setResults first vs).ibuf = s.ibuf := rfl
@[simp] theorem State.setResults_obuf (first : Nat) (vs : List Word) : (s.setResults first vs).obuf = s.obuf := rfl
@[simp] theorem State.setResults_pending (first : Nat) (vs : List Word) : (s.setResults first vs).pending = s.pending := rfl
@[simp] theorem State.setResults_cp (first : Nat) (vs : List Word) : (s.setResults first vs).cp = s.cp := rfl
@[simp] theorem State.setResults_replies (first : Nat) (vs : List Word) : (s.setResults first vs).replies = s.replies := rfl
@[simp] theorem State.setResults_freeCount (first : Nat) (vs : List Word) : (s.setResults first vs).freeCount = s.freeCount := rfl

/-! ### `State.succeed` -/

@[simp] theorem State.succeed_a : (s.succeed).a = s.a := rfl
@[simp] theorem State.succeed_r : (s.succeed).r = s.r := rfl
@[simp] theorem State.succeed_status : (s.succeed).status = statusOk s.status := rfl
@[simp] theorem State.succeed_crcAcc : (s.succeed).crcAcc = s.crcAcc := rfl
@[simp] theorem State.succeed_pn9 : (s.succeed).pn9 = s.pn9 := rfl
@[simp] theorem State.succeed_fecPhase : (s.succeed).fecPhase = s.fecPhase := rfl
@[simp] theorem State.succeed_fecHist : (s.succeed).fecHist = s.fecHist := rfl
@[simp] theorem State.succeed_ibuf : (s.succeed).ibuf = s.ibuf := rfl
@[simp] theorem State.succeed_obuf : (s.succeed).obuf = s.obuf := rfl
@[simp] theorem State.succeed_pending : (s.succeed).pending = s.pending := rfl
@[simp] theorem State.succeed_cp : (s.succeed).cp = s.cp := rfl
@[simp] theorem State.succeed_replies : (s.succeed).replies = s.replies := rfl
@[simp] theorem State.succeed_freeCount : (s.succeed).freeCount = s.freeCount := rfl

/-! ### `State.raise` -/

@[simp] theorem State.raise_a (e : CmdError) : (s.raise e).a = s.a := rfl
@[simp] theorem State.raise_r (e : CmdError) : (s.raise e).r = s.r := rfl
@[simp] theorem State.raise_status (e : CmdError) : (s.raise e).status = statusRaise s.status e := rfl
@[simp] theorem State.raise_crcAcc (e : CmdError) : (s.raise e).crcAcc = s.crcAcc := rfl
@[simp] theorem State.raise_pn9 (e : CmdError) : (s.raise e).pn9 = s.pn9 := rfl
@[simp] theorem State.raise_fecPhase (e : CmdError) : (s.raise e).fecPhase = s.fecPhase := rfl
@[simp] theorem State.raise_fecHist (e : CmdError) : (s.raise e).fecHist = s.fecHist := rfl
@[simp] theorem State.raise_ibuf (e : CmdError) : (s.raise e).ibuf = s.ibuf := rfl
@[simp] theorem State.raise_obuf (e : CmdError) : (s.raise e).obuf = s.obuf := rfl
@[simp] theorem State.raise_pending (e : CmdError) : (s.raise e).pending = s.pending := rfl
@[simp] theorem State.raise_cp (e : CmdError) : (s.raise e).cp = s.cp := rfl
@[simp] theorem State.raise_replies (e : CmdError) : (s.raise e).replies = s.replies := rfl
@[simp] theorem State.raise_freeCount (e : CmdError) : (s.raise e).freeCount = s.freeCount := rfl

/-! ### `State.resetBlock` -/

@[simp] theorem State.resetBlock_a : (s.resetBlock).a = Vector.replicate 8 0 := rfl
@[simp] theorem State.resetBlock_r : (s.resetBlock).r = Vector.replicate 8 0 := rfl
@[simp] theorem State.resetBlock_status : (s.resetBlock).status = 0x0000#16 := rfl
@[simp] theorem State.resetBlock_crcAcc : (s.resetBlock).crcAcc = 0xFFFF#16 := rfl
@[simp] theorem State.resetBlock_pn9 : (s.resetBlock).pn9 = 0x1FF#9 := rfl
@[simp] theorem State.resetBlock_fecPhase : (s.resetBlock).fecPhase = .unprimed := rfl
@[simp] theorem State.resetBlock_fecHist : (s.resetBlock).fecHist = Config.freeFecHist s.freeCount := rfl
@[simp] theorem State.resetBlock_ibuf : (s.resetBlock).ibuf = [] := rfl
@[simp] theorem State.resetBlock_obuf : (s.resetBlock).obuf = [] := rfl
@[simp] theorem State.resetBlock_pending : (s.resetBlock).pending = s.pending := rfl
@[simp] theorem State.resetBlock_cp : (s.resetBlock).cp = s.cp := rfl
@[simp] theorem State.resetBlock_replies : (s.resetBlock).replies = s.replies := rfl
@[simp] theorem State.resetBlock_freeCount : (s.resetBlock).freeCount = s.freeCount + 1 := rfl

/-! ### `State.reply` -/

@[simp] theorem State.reply_a (answer : HostReply) : (s.reply answer).a = s.a := rfl
@[simp] theorem State.reply_r (answer : HostReply) : (s.reply answer).r = s.r := rfl
@[simp] theorem State.reply_status (answer : HostReply) : (s.reply answer).status = s.status := rfl
@[simp] theorem State.reply_crcAcc (answer : HostReply) : (s.reply answer).crcAcc = s.crcAcc := rfl
@[simp] theorem State.reply_pn9 (answer : HostReply) : (s.reply answer).pn9 = s.pn9 := rfl
@[simp] theorem State.reply_fecPhase (answer : HostReply) : (s.reply answer).fecPhase = s.fecPhase := rfl
@[simp] theorem State.reply_fecHist (answer : HostReply) : (s.reply answer).fecHist = s.fecHist := rfl
@[simp] theorem State.reply_ibuf (answer : HostReply) : (s.reply answer).ibuf = s.ibuf := rfl
@[simp] theorem State.reply_obuf (answer : HostReply) : (s.reply answer).obuf = s.obuf := rfl
@[simp] theorem State.reply_pending (answer : HostReply) : (s.reply answer).pending = s.pending := rfl
@[simp] theorem State.reply_cp (answer : HostReply) : (s.reply answer).cp = s.cp := rfl
@[simp] theorem State.reply_replies (answer : HostReply) : (s.reply answer).replies = s.replies ++ [answer] := rfl
@[simp] theorem State.reply_freeCount (answer : HostReply) : (s.reply answer).freeCount = s.freeCount := rfl

/-! ### `State.advance` -/

@[simp] theorem State.advance_a : (s.advance).a = s.a := rfl
@[simp] theorem State.advance_r : (s.advance).r = s.r := rfl
@[simp] theorem State.advance_status : (s.advance).status = s.status := rfl
@[simp] theorem State.advance_crcAcc : (s.advance).crcAcc = s.crcAcc := rfl
@[simp] theorem State.advance_pn9 : (s.advance).pn9 = s.pn9 := rfl
@[simp] theorem State.advance_fecPhase : (s.advance).fecPhase = s.fecPhase := rfl
@[simp] theorem State.advance_fecHist : (s.advance).fecHist = s.fecHist := rfl
@[simp] theorem State.advance_ibuf : (s.advance).ibuf = s.ibuf := rfl
@[simp] theorem State.advance_obuf : (s.advance).obuf = s.obuf := rfl
@[simp] theorem State.advance_pending : (s.advance).pending = s.pending.tail := rfl
@[simp] theorem State.advance_cp : (s.advance).cp = s.cp + 1 := rfl
@[simp] theorem State.advance_replies : (s.advance).replies = s.replies := rfl
@[simp] theorem State.advance_freeCount : (s.advance).freeCount = s.freeCount := rfl

/-! ### `State.reset` -/

@[simp] theorem State.reset_a : State.reset.a = Vector.replicate 8 0 := rfl
@[simp] theorem State.reset_r : State.reset.r = Vector.replicate 8 0 := rfl
@[simp] theorem State.reset_status : State.reset.status = 0x0000#16 := rfl
@[simp] theorem State.reset_crcAcc : State.reset.crcAcc = 0xFFFF#16 := rfl
@[simp] theorem State.reset_pn9 : State.reset.pn9 = 0x1FF#9 := rfl
@[simp] theorem State.reset_fecPhase : State.reset.fecPhase = .unprimed := rfl
@[simp] theorem State.reset_ibuf : State.reset.ibuf = [] := rfl
@[simp] theorem State.reset_obuf : State.reset.obuf = [] := rfl
@[simp] theorem State.reset_pending : State.reset.pending = [] := rfl
@[simp] theorem State.reset_cp : State.reset.cp = 0 := rfl
@[simp] theorem State.reset_replies : State.reset.replies = [] := rfl
@[simp] theorem State.reset_freeCount : State.reset.freeCount = 0 := rfl

end Sys2Proof.Machine
end

