-- ==== Sys2Proof/Laws/Ops.lean ====
section
/-! SUPPORT. What the shared operations of Machine/Ops.lean can do, said once. -/

namespace Sys2Proof.Machine

/-! ### Checks in order (60_exceptions.md R277) -/

@[simp] theorem firstError_nil : firstError [] = none := rfl

theorem firstError_cons_of_holds {c : Check} (cs : List Check) (h : c.holds = true) :
    firstError (c :: cs) = firstError cs := by simp [firstError, h]

theorem firstError_cons_of_fails {c : Check} (cs : List Check) (h : c.holds = false) :
    firstError (c :: cs) = some c.error := by simp [firstError, h]

/-- No error is reported exactly where every check holds. -/
theorem firstError_eq_none_iff (cs : List Check) :
    firstError cs = none ↔ ∀ c ∈ cs, c.holds = true := by
  induction cs with
  | nil => simp
  | cons c cs ih => cases h : c.holds <;> simp [firstError, h, ih]

/-- Checks that hold are passed over: what follows them decides. -/
theorem firstError_append_of_holds {passed : List Check} (cs : List Check)
    (h : ∀ c ∈ passed, c.holds = true) : firstError (passed ++ cs) = firstError cs := by
  induction passed with
  | nil => rfl
  | cons c passed ih =>
    rw [List.cons_append, firstError_cons_of_holds _ (h c (by simp)),
      ih fun d hd => h d (by simp [hd])]

/-- A reported error is that of a check that fails after checks that all hold. -/
theorem firstError_eq_some_iff (cs : List Check) (e : CmdError) :
    firstError cs = some e ↔
      ∃ passed c rest, cs = passed ++ c :: rest ∧ (∀ d ∈ passed, d.holds = true) ∧
        c.holds = false ∧ c.error = e := by
  constructor
  · induction cs with
    | nil => simp
    | cons c cs ih =>
      intro h
      cases hc : c.holds with
      | false =>
        rw [firstError_cons_of_fails _ hc] at h
        exact ⟨[], c, cs, rfl, by simp, hc, Option.some.inj h⟩
      | true =>
        rw [firstError_cons_of_holds _ hc] at h
        obtain ⟨passed, d, rest, rfl, hpassed, hd, he⟩ := ih h
        refine ⟨c :: passed, d, rest, rfl, ?_, hd, he⟩
        simpa [hc] using hpassed
  · rintro ⟨passed, c, rest, rfl, hpassed, hc, rfl⟩
    rw [firstError_append_of_holds _ hpassed, firstError_cons_of_fails _ hc]

/-- A reported error belongs to one of the checks. -/
theorem error_mem_of_firstError {cs : List Check} {e : CmdError} (h : firstError cs = some e) :
    ∃ c ∈ cs, c.error = e := by
  obtain ⟨passed, c, rest, rfl, -, -, he⟩ := (firstError_eq_some_iff cs e).1 h
  exact ⟨c, by simp, he⟩

/-! ### How a command ends (10_state.md R25, 60_exceptions.md R280) -/

theorem State.finish_ok (s t : State) : s.finish (.ok t) = t.succeed := rfl

theorem State.finish_error (s : State) (e : CmdError) : s.finish (.error e) = s.raise e := rfl

/-- Where every check holds, a command has its effect and succeeds. -/
theorem State.command_of_holds (s : State) {checks : List Check} (effect : State → State)
    (h : ∀ c ∈ checks, c.holds = true) : s.command checks effect = (effect s).succeed := by
  simp [State.command, (firstError_eq_none_iff checks).2 h, State.finish]

/-- Where a check fails, a command raises the first error and does nothing else. -/
theorem State.command_of_error (s : State) {checks : List Check} (effect : State → State)
    {e : CmdError} (h : firstError checks = some e) : s.command checks effect = s.raise e := by
  simp [State.command, h, State.finish]

/-- All a command can do: it raises the first error and writes only `STATUS`, or every check holds and it
has its effect. -/
theorem State.command_cases (s : State) (checks : List Check) (effect : State → State) :
    (∃ e, firstError checks = some e ∧ s.command checks effect = s.raise e) ∨
      ((∀ c ∈ checks, c.holds = true) ∧ s.command checks effect = (effect s).succeed) := by
  cases h : firstError checks with
  | some e => exact .inl ⟨e, rfl, s.command_of_error effect h⟩
  | none =>
    have hall := (firstError_eq_none_iff checks).1 h
    exact .inr ⟨hall, s.command_of_holds effect hall⟩

/-! ### Memory keeps its form (10_state.md R34 to R36, 20_memory.md R51) -/

theorem Memory.wf_iff (s : State) :
    Memory.wf s = true ↔ s.ibuf.length ≤ Config.bufCap ∧ s.obuf.length ≤ Config.bufCap := by
  simp [Memory.wf]

theorem Memory.wf_reset : Memory.wf State.reset = true := by decide

theorem Memory.wf_memWrite {s : State} {B : Span} (h : Memory.wf s = true)
    (hB : B.length ≤ Config.bufCap) : Memory.wf (s.memWrite B) = true := by
  rw [Memory.wf_iff] at h ⊢; exact ⟨h.1, hB⟩

theorem Memory.wf_loadSpan {s : State} {B : Span} (h : Memory.wf s = true)
    (hB : B.length ≤ Config.bufCap) : Memory.wf (s.loadSpan B) = true := by
  rw [Memory.wf_iff] at h ⊢; exact ⟨hB, h.2⟩

theorem Memory.wf_xfer {s : State} (h : Memory.wf s = true) :
    Memory.wf (s.loadSpan s.obuf) = true :=
  Memory.wf_loadSpan h ((Memory.wf_iff s).1 h).2

@[simp] theorem Memory.wf_succeed (s : State) : Memory.wf s.succeed = Memory.wf s := rfl

@[simp] theorem Memory.wf_raise (s : State) (e : CmdError) :
    Memory.wf (s.raise e) = Memory.wf s := rfl

@[simp] theorem Memory.wf_setR (s : State) (i : Fin 8) (v : Word) :
    Memory.wf (s.setR i v) = Memory.wf s := rfl

@[simp] theorem Memory.wf_setA (s : State) (i : Fin 8) (v : Word) :
    Memory.wf (s.setA i v) = Memory.wf s := rfl

@[simp] theorem Memory.wf_setResults (s : State) (first : Nat) (vs : List Word) :
    Memory.wf (s.setResults first vs) = Memory.wf s := rfl

@[simp] theorem Memory.wf_reply (s : State) (answer : HostReply) :
    Memory.wf (s.reply answer) = Memory.wf s := rfl

@[simp] theorem Memory.wf_advance (s : State) : Memory.wf s.advance = Memory.wf s := rfl

theorem Memory.wf_resetBlock (s : State) : Memory.wf s.resetBlock = true := by
  rw [Memory.wf_iff]; simp

/-- A command keeps the memory's form where its effect does. -/
theorem Memory.wf_command {s : State} (checks : List Check) {effect : State → State}
    (h : Memory.wf s = true)
    (heffect : (∀ c ∈ checks, c.holds = true) → Memory.wf (effect s) = true) :
    Memory.wf (s.command checks effect) = true := by
  rcases s.command_cases checks effect with ⟨e, -, h'⟩ | ⟨hall, h'⟩
  · rw [h', Memory.wf_raise, h]
  · rw [h', Memory.wf_succeed, heffect hall]

/-! ### Reading bytes (20_memory.md R50, R51) -/

/-- A write is read back. -/
theorem readByte_memWrite (s : State) (B : Span) (i : Nat) :
    readByte (s.memWrite B).obuf i = readByte B i := rfl

/-- An output write leaves every input byte alone (10_state.md R34). -/
theorem readByte_ibuf_memWrite (s : State) (B : Span) (i : Nat) :
    readByte (s.memWrite B).ibuf i = readByte s.ibuf i := rfl

/-- A byte has a value exactly below the length (20_memory.md R51). -/
theorem readByte_isSome_iff (B : Span) (i : Nat) : (readByte B i).isSome ↔ i < B.length := by
  simp [readByte]

/-- Spans whose bytes all read the same are the same data. -/
theorem eq_of_readByte {B C : Span} (h : ∀ i, readByte B i = readByte C i) : B = C :=
  List.ext_getElem? h

/-- The cells of a span have strictly rising addresses. -/
theorem spanCells_rising (B : Span) : (spanCells B).Pairwise fun c d => c.1 < d.1 := by
  rw [List.pairwise_iff_getElem]
  intro i j hi hj hij
  simpa [spanCells] using hij

/-- A cell of a span is an index and the byte it reads. -/
theorem mem_spanCells_iff (B : Span) (i : Nat) (b : Byte) :
    (i, b) ∈ spanCells B ↔ readByte B i = some b := by
  simp only [spanCells, List.mem_map, readByte]
  constructor
  · rintro ⟨⟨b', i'⟩, h, heq⟩
    simp only [Prod.mk.injEq] at heq
    obtain ⟨rfl, rfl⟩ := heq
    exact (List.mem_zipIdx_iff_getElem?).1 h
  · intro h
    exact ⟨(b, i), (List.mem_zipIdx_iff_getElem?).2 h, rfl⟩

end Sys2Proof.Machine
end

