-- ==== Sys2Proof/Laws/PerInstr.lean ====
section
/-! SUPPORT. Statements made for every command, one lemma per constructor. -/

namespace Sys2Proof.Laws.FamilyField

/-- The family field, bits 7:4 of a command's opcode, is the code of its family (30_encoding.md R71,
R72). -/
def Statement (i : Instr) : Prop := famField (opcode i) = familyCode i.family

theorem nop : Statement .nop := rfl

theorem xfer : Statement .xfer := rfl

theorem clrerr : Statement .clrerr := rfl

theorem sreset : Statement .sreset := rfl

theorem bfPack : Statement .bfPack := rfl

theorem bfUnpack : Statement .bfUnpack := rfl

theorem putU8 : Statement .putU8 := rfl

theorem putLe16 : Statement .putLe16 := rfl

theorem putBe16 : Statement .putBe16 := rfl

theorem putLe32 : Statement .putLe32 := rfl

theorem putBe32 : Statement .putBe32 := rfl

theorem getU8 : Statement .getU8 := rfl

theorem getLe16 : Statement .getLe16 := rfl

theorem getBe16 : Statement .getBe16 := rfl

theorem getLe32 : Statement .getLe32 := rfl

theorem getBe32 : Statement .getBe32 := rfl

theorem crcInit : Statement .crcInit := rfl

theorem crcBit : Statement .crcBit := rfl

theorem crcByte : Statement .crcByte := rfl

theorem crcRead : Statement .crcRead := rfl

theorem crcSpan : Statement .crcSpan := rfl

theorem pn9Seed : Statement .pn9Seed := rfl

theorem pn9Bit : Statement .pn9Bit := rfl

theorem pn9Byte : Statement .pn9Byte := rfl

theorem whiten : Statement .whiten := rfl

theorem fecEncode : Statement .fecEncode := rfl

theorem fecNew : Statement .fecNew := rfl

theorem fecPrime : Statement .fecPrime := rfl

theorem fecSubmit : Statement .fecSubmit := rfl

theorem athPack : Statement .athPack := rfl

theorem athUnpack : Statement .athUnpack := rfl

theorem cphPack : Statement .cphPack := rfl

theorem cphUnpack : Statement .cphUnpack := rfl

theorem cpPack : Statement .cpPack := rfl

theorem cpUnpack : Statement .cpUnpack := rfl

theorem sphPack : Statement .sphPack := rfl

theorem sphUnpack : Statement .sphUnpack := rfl

theorem spfPack : Statement .spfPack := rfl

theorem spfUnpack : Statement .spfUnpack := rfl

theorem spPack : Statement .spPack := rfl

theorem spUnpack : Statement .spUnpack := rfl

end Sys2Proof.Laws.FamilyField
end

