-- ==== Sys2Proof/Tests/Slice0.lean ====
section
/-! SUPPORT. The model's own tests: words and vectors written out in spec/95_test_vectors.md (each test
names its table), and for every obligation with hypotheses a state that meets them. -/

namespace Sys2Proof.Tests

open Sys2Proof Sys2Proof.Machine

/-- A state as after reset, with arguments from `A[0]` on and an input span. -/
def given (args : List Int) (input : Span) : State :=
  { State.reset with
    a := writeFrom 0 (args.map (BitVec.ofInt 64)) (Vector.replicate 8 0)
    ibuf := input }

/-- A state as after reset whose host has one action left. -/
def hosting (act : HostAction) : State := { State.reset with pending := [act] }

/-- What is seen of the next state, if there is one. -/
def seen {α : Type} (o : Host.Outcome State Fault Refusal) (view : State → α) : Option α :=
  match o with
  | .next t => some (view t)
  | .fault _ => none
  | .refused _ => none

/-! ### Well-formedness: an ill-formed action for each check (10_state.md R39) -/

theorem test_wf_refuses_register_8 : (HostAction.seta 8 0).wellFormed = false := by decide
theorem test_wf_refuses_geta_8 : (HostAction.geta 8).wellFormed = false := by decide
theorem test_wf_refuses_getr_8 : (HostAction.getr 8).wellFormed = false := by decide
theorem test_wf_refuses_value_above : (HostAction.seta 0 (2 ^ 63)).wellFormed = false := by decide
theorem test_wf_refuses_value_below : (HostAction.seta 0 (-(2 ^ 63) - 1)).wellFormed = false := by
  decide
theorem test_wf_refuses_long_load :
    (HostAction.load (List.replicate 1025 0)).wellFormed = false := by
  set_option maxRecDepth 20000 in decide
theorem test_wf_accepts_bounds :
    (HostAction.seta 7 (2 ^ 63 - 1)).wellFormed = true ∧
      (HostAction.seta 0 (-(2 ^ 63))).wellFormed = true := by decide

/-! ### Decoding: words written out from 30_encoding.md R72, bit by bit -/

theorem test_decode_nop : decode 0b00000000#8 = .instr .nop := by decide
theorem test_decode_xfer : decode 0b00000001#8 = .instr .xfer := by decide
theorem test_decode_clrerr : decode 0b00000010#8 = .instr .clrerr := by decide
theorem test_decode_sreset : decode 0b00000011#8 = .instr .sreset := by decide
theorem test_decode_bfPack : decode 0b00010000#8 = .instr .bfPack := by decide
theorem test_decode_bfUnpack : decode 0b00010001#8 = .instr .bfUnpack := by decide
theorem test_decode_putU8 : decode 0b00010010#8 = .instr .putU8 := by decide
theorem test_decode_putLe16 : decode 0b00010011#8 = .instr .putLe16 := by decide
theorem test_decode_putBe16 : decode 0b00010100#8 = .instr .putBe16 := by decide
theorem test_decode_putLe32 : decode 0b00010101#8 = .instr .putLe32 := by decide
theorem test_decode_putBe32 : decode 0b00010110#8 = .instr .putBe32 := by decide
theorem test_decode_getU8 : decode 0b00011010#8 = .instr .getU8 := by decide
theorem test_decode_getLe16 : decode 0b00011011#8 = .instr .getLe16 := by decide
theorem test_decode_getBe16 : decode 0b00011100#8 = .instr .getBe16 := by decide
theorem test_decode_getLe32 : decode 0b00011101#8 = .instr .getLe32 := by decide
theorem test_decode_getBe32 : decode 0b00011110#8 = .instr .getBe32 := by decide
theorem test_decode_crcInit : decode 0b00100000#8 = .instr .crcInit := by decide
theorem test_decode_crcBit : decode 0b00100001#8 = .instr .crcBit := by decide
theorem test_decode_crcByte : decode 0b00100010#8 = .instr .crcByte := by decide
theorem test_decode_crcRead : decode 0b00100011#8 = .instr .crcRead := by decide
theorem test_decode_crcSpan : decode 0b00100100#8 = .instr .crcSpan := by decide
theorem test_decode_pn9Seed : decode 0b00110000#8 = .instr .pn9Seed := by decide
theorem test_decode_pn9Bit : decode 0b00110001#8 = .instr .pn9Bit := by decide
theorem test_decode_pn9Byte : decode 0b00110010#8 = .instr .pn9Byte := by decide
theorem test_decode_whiten : decode 0b00110011#8 = .instr .whiten := by decide
theorem test_decode_fecEncode : decode 0b01000000#8 = .instr .fecEncode := by decide
theorem test_decode_fecNew : decode 0b01000001#8 = .instr .fecNew := by decide
theorem test_decode_fecPrime : decode 0b01000010#8 = .instr .fecPrime := by decide
theorem test_decode_fecSubmit : decode 0b01000011#8 = .instr .fecSubmit := by decide
theorem test_decode_athPack : decode 0b01010000#8 = .instr .athPack := by decide
theorem test_decode_athUnpack : decode 0b01010001#8 = .instr .athUnpack := by decide
theorem test_decode_cphPack : decode 0b01100000#8 = .instr .cphPack := by decide
theorem test_decode_cphUnpack : decode 0b01100001#8 = .instr .cphUnpack := by decide
theorem test_decode_cpPack : decode 0b01100010#8 = .instr .cpPack := by decide
theorem test_decode_cpUnpack : decode 0b01100011#8 = .instr .cpUnpack := by decide
theorem test_decode_sphPack : decode 0b01110000#8 = .instr .sphPack := by decide
theorem test_decode_sphUnpack : decode 0b01110001#8 = .instr .sphUnpack := by decide
theorem test_decode_spfPack : decode 0b01110010#8 = .instr .spfPack := by decide
theorem test_decode_spfUnpack : decode 0b01110011#8 = .instr .spfUnpack := by decide
theorem test_decode_spPack : decode 0b01110100#8 = .instr .spPack := by decide
theorem test_decode_spUnpack : decode 0b01110101#8 = .instr .spUnpack := by decide
theorem test_decode_counts :
    ((List.range 256).filter fun n => (decodeTableWord 8 n).isSome).length = 41 := by decide

/-! ### System (95_test_vectors.md 2.5) -/

theorem test_nop : seen (exec .nop { State.reset with status := 0x016C#16 }) (·.status)
    = some 0x0100#16 := by decide
theorem test_clrerr : seen (exec .clrerr { State.reset with status := 0x016C#16 }) (·.status)
    = some 0 := by decide
theorem test_xfer :
    seen (exec .xfer { State.reset with obuf := [0x99, 0x8E] }) (fun t => (t.ibuf, t.obuf))
      = some ([0x99, 0x8E], [0x99, 0x8E]) := by decide
theorem test_sreset :
    seen (exec .sreset (given [1, 2] [3])) (fun t => (t.a, t.ibuf, t.crcAcc, t.pn9))
      = some (Vector.replicate 8 0, [], 0xFFFF#16, 0x1FF#9) := by decide
theorem test_illegal_opcode : seen (runCommand 0x04 State.reset) (·.status) = some 0x019E#16 := by
  decide
theorem test_illegal_last_opcode : seen (runCommand 0xFF State.reset) (·.status)
    = some 0x019E#16 := by decide

/-! ### Bitfield codec and byte order (95_test_vectors.md 2.1) -/

theorem test_bfPack : seen (exec .bfPack (given [2, 10, 24, 1, 63, 0] [])) (·.r[6])
    = some 0x95807F00#64 := by decide
theorem test_bfPack_first_error :
    seen (exec .bfPack (given [4, 32, 0, 0, 0, 0] [])) (fun t => (t.status, t.r[6]))
      = some (0x0109#16, 0) := by decide
theorem test_bfUnpack :
    seen (exec .bfUnpack (given [0, 0, 0, 0, 0, 0, 0x95807FA5] [])) (·.r)
      = some #v[2, 10, 24, 1, 63, 165, 0, 0] := by decide
theorem test_bfUnpack_range :
    seen (exec .bfUnpack (given [0, 0, 0, 0, 0, 0, 0x100000000] [])) (·.status)
      = some 0x0179#16 := by decide
theorem test_putU8 : seen (exec .putU8 (given [212] [])) (·.obuf) = some [0xD4] := by decide
theorem test_putU8_range : seen (exec .putU8 (given [-1] [])) (·.status) = some 0x0179#16 := by decide
theorem test_putLe16 : seen (exec .putLe16 (given [755] [])) (·.obuf) = some [0xF3, 0x02] := by decide
theorem test_putBe16 : seen (exec .putBe16 (given [755] [])) (·.obuf) = some [0x02, 0xF3] := by decide
theorem test_putLe32 : seen (exec .putLe32 (given [0x12345678] [])) (·.obuf)
    = some [0x78, 0x56, 0x34, 0x12] := by decide
theorem test_putLe32_range : seen (exec .putLe32 (given [4294967296] [])) (·.status)
    = some 0x0179#16 := by decide
theorem test_putBe32 : seen (exec .putBe32 (given [0x95807F00] [])) (·.obuf)
    = some [0x95, 0x80, 0x7F, 0x00] := by decide
theorem test_getU8 : seen (exec .getU8 (given [] [0xD4])) (·.r[0]) = some 212 := by decide
theorem test_getU8_length : seen (exec .getU8 (given [] [])) (·.status) = some 0x0172#16 := by decide
theorem test_getLe16 : seen (exec .getLe16 (given [] [0xF3, 0x02])) (·.r[0]) = some 755 := by decide
theorem test_getBe16 : seen (exec .getBe16 (given [] [0xF3, 0x02])) (·.r[0]) = some 62210 := by decide
theorem test_getLe32_unsigned :
    seen (exec .getLe32 (given [] [0xFF, 0xFF, 0xFF, 0xFF])) (·.r[0]) = some 4294967295 := by decide
theorem test_getBe32 : seen (exec .getBe32 (given [] [0x95, 0x80, 0x7F, 0x00])) (·.r[0])
    = some 2508226304 := by decide

/-! ### CRC16 (95_test_vectors.md 2.2) -/

theorem test_crcInit : seen (exec .crcInit { State.reset with crcAcc := 0x43FD#16 }) (·.crcAcc)
    = some 0xFFFF#16 := by decide
theorem test_crcBit_zero : seen (exec .crcBit (given [0] [])) (·.crcAcc) = some 0x7FFB#16 := by decide
theorem test_crcBit_one : seen (exec .crcBit (given [1] [])) (·.crcAcc) = some 0xFFFE#16 := by decide
theorem test_crcByte : seen (exec .crcByte (given [0x0D] [])) (·.crcAcc) = some 0x7D2F#16 := by decide
theorem test_crcByte_not_reseeded :
    seen (exec .crcByte { given [0] [] with crcAcc := 0x43FD#16 }) (·.crcAcc)
      = some 0x7C89#16 := by decide
theorem test_crcRead :
    seen (exec .crcRead { State.reset with crcAcc := 0xEBC9#16 }) (fun t => (t.r[0], t.obuf))
      = some (60361, [0xC9, 0xEB]) := by decide
theorem test_crcSpan_check_value :
    seen (exec .crcSpan (given [] [0x31, 0x32, 0x33, 0x34, 0x35, 0x36, 0x37, 0x38, 0x39]))
      (fun t => (t.crcAcc, t.obuf)) = some (0xAEE7#16, [0xE7, 0xAE]) := by
  set_option maxRecDepth 20000 in decide
theorem test_crcSpan_empty : seen (exec .crcSpan (given [] [])) (·.crcAcc) = some 0xFFFF#16 := by
  decide

/-! ### Whitening (95_test_vectors.md 2.3) -/

theorem test_pn9Seed : seen (exec .pn9Seed { State.reset with pn9 := 0x0AE#9 }) (·.pn9)
    = some 0x1FF#9 := by decide
theorem test_pn9Bit : seen (exec .pn9Bit { State.reset with pn9 := 0x01E#9 })
    (fun t => (t.r[0], t.pn9)) = some (0, 0x03D#9) := by decide
theorem test_pn9Byte : seen (exec .pn9Byte { State.reset with pn9 := 0x10F#9 })
    (fun t => (t.r[0], t.pn9)) = some (0xE1, 0x170#9) := by decide
theorem test_whiten_foobar :
    seen (exec .whiten (given [] [0x66, 0x6F, 0x6F, 0x62, 0x61, 0x72])) (fun t => (t.obuf, t.pn9))
      = some ([0x99, 0x8E, 0x72, 0xF8, 0x8C, 0xF7], 0x198#9) := by decide
theorem test_whiten_reseeds : seen (exec .whiten { given [] [0xFF, 0xFF, 0xFF, 0xFF] with pn9 := 3 })
    (fun t => (t.obuf, t.pn9)) = some ([0x00, 0x1E, 0xE2, 0x65], 0x16F#9) := by decide

/-! ### FEC (95_test_vectors.md 2.4) -/

theorem test_fecEncode_too_long :
    seen (exec .fecEncode (given [] (List.replicate 257 0))) (fun t => (t.status, t.obuf))
      = some (0x0192#16, []) := by set_option maxRecDepth 20000 in decide
theorem test_fecEncode_testCode :
    (fecEncodeWith fecTest (given [] [0x0D, 0x01])).obuf
      = [0x0D, 0x0D, 0x0D, 0x0D, 0x01, 0x01, 0x01, 0x01] := by decide
theorem test_fecNew : seen (exec .fecNew { State.reset with fecPhase := .accepting }) (·.fecPhase)
    = some .unprimed := by decide
theorem test_fecPrime : seen (exec .fecPrime State.reset) (fun t => (t.fecPhase, t.status))
    = some (.primedEmpty, 0) := by decide
theorem test_fecPrime_twice :
    seen (exec .fecPrime { State.reset with fecPhase := .primedEmpty }) (·.status)
      = some 0x018D#16 := by decide
theorem test_fecSubmit_premature : seen (exec .fecSubmit (given [] [1, 2, 3])) (·.status)
    = some 0x018D#16 := by decide
theorem test_fecSubmit_short_chunk :
    seen (exec .fecSubmit { given [] [1, 2, 3] with fecPhase := .primedEmpty })
      (fun t => (t.status, t.fecPhase)) = some (0x0185#16, .primedEmpty) := by decide
theorem test_fecSubmit_testCode_corrects :
    (fun t : State => (t.obuf, t.fecPhase))
      (fecSubmitWith fecTest { given [] [0x0D, 0xFF, 0x0D, 0x0D] with fecPhase := .primedEmpty })
      = ([0x0D], .accepting) := by decide
theorem test_fecSubmit_testCode_rejects :
    (fecSubmitWith fecTest
      { given [] [0x0D, 0x0C, 0x0D, 0x0C] with fecPhase := .primedEmpty }).status
      = 0x0185#16 := by decide

/-! ### Addressed header (95_test_vectors.md 2.6) -/

theorem test_athPack_flags_zero : seen (exec .athPack (given [2, 10, 24, 1, 63, 255] [])) (·.obuf)
    = some [0x95, 0x80, 0x7F, 0x00] := by decide
theorem test_athPack_range : seen (exec .athPack (given [0, 0, 0, 0, -1] [])) (·.status)
    = some 0x0129#16 := by decide
theorem test_athUnpack_ignores_flags :
    seen (exec .athUnpack (given [] [0x95, 0x80, 0x7F, 0xA5])) (·.r)
      = some #v[2, 10, 24, 1, 63, 0, 0, 0] := by decide
theorem test_athUnpack_length : seen (exec .athUnpack (given [] [0x95, 0x80, 0x7F])) (·.status)
    = some 0x0172#16 := by decide

/-! ### Client packet (95_test_vectors.md 2.7) -/

theorem test_cphPack : seen (exec .cphPack (given [10, 755, 12, 212, 57] [])) (·.obuf)
    = some [0x0A, 0xF3, 0x02, 0x0C, 0x00, 0xD4, 0x39] := by decide
theorem test_cphPack_range : seen (exec .cphPack (given [10, 0, 0, 256, 0] [])) (·.status)
    = some 0x0151#16 := by decide
theorem test_cphUnpack :
    seen (exec .cphUnpack (given [] [0x0A, 0xF3, 0x02, 0x0C, 0x00, 0xD4, 0x39])) (·.r)
      = some #v[10, 755, 12, 212, 57, 0, 0, 0] := by decide
theorem test_cphUnpack_range :
    seen (exec .cphUnpack (given [] [0x05, 0, 0, 0, 0, 0, 0])) (·.status) = some 0x0139#16 := by decide
theorem test_cpPack :
    seen (exec .cpPack (given [-5, 755, 12, 212, 57] [0x11, 0x22, 0x33])) (fun t => (t.obuf, t.r[0]))
      = some ([0x09, 0xF3, 0x02, 0x0C, 0x00, 0xD4, 0x39, 0x11, 0x22, 0x33], 9) := by decide
theorem test_cpPack_length_first :
    seen (exec .cpPack (given [0, 65536] (List.replicate 246 0))) (·.status)
      = some 0x0139#16 := by set_option maxRecDepth 20000 in decide
theorem test_cpUnpack :
    seen (exec .cpUnpack (given [] [0x09, 0xF3, 0x02, 0x0C, 0x00, 0xD4, 0x39, 0x11, 0x22, 0x33]))
      (fun t => (t.r, t.obuf))
      = some (#v[9, 755, 12, 212, 57, 0, 0, 0], [0x11, 0x22, 0x33]) := by decide
theorem test_cpUnpack_integrity :
    seen (exec .cpUnpack (given [] [0x0A, 0xF3, 0x02, 0x0C, 0x00, 0xD4, 0x39])) (·.status)
      = some 0x013B#16 := by decide

/-! ### Space packet (95_test_vectors.md 2.8) -/

/-- The frame of 95_test_vectors.md 2.8, first row of SP.PACK. -/
def frame : Span := [0x0D, 0x01, 0xA0, 0x0F, 0xFD, 0x38, 0x11, 0x22, 0x33, 0x0C, 0x00, 0xC9, 0xEB]

theorem test_sphPack : seen (exec .sphPack (given [27, 0, 1134, 23, 132] [])) (·.obuf)
    = some [0x1B, 0x00, 0x6E, 0x04, 0x17, 0x84] := by decide
theorem test_sphPack_port : seen (exec .sphPack (given [10, 2] [])) (·.status)
    = some 0x0161#16 := by decide
theorem test_sphUnpack :
    seen (exec .sphUnpack (given [] [0x1B, 0x00, 0x6E, 0x04, 0x17, 0x84])) (·.r)
      = some #v[27, 0, 1134, 23, 132, 0, 0, 0] := by decide
theorem test_sphUnpack_length_before_port :
    seen (exec .sphUnpack (given [] [0x09, 0x02, 0, 0, 0, 0])) (·.status) = some 0x0139#16 := by decide
theorem test_spfPack : seen (exec .spfPack (given [0, 0, 0, 0, 0, 12, 0xEBC9] [])) (·.obuf)
    = some [0x0C, 0x00, 0xC9, 0xEB] := by decide
theorem test_spfPack_range : seen (exec .spfPack (given [0, 0, 0, 0, 0, 0, 65536] [])) (·.status)
    = some 0x0169#16 := by decide
theorem test_spfUnpack : seen (exec .spfUnpack (given [] [0x0C, 0x00, 0x3D, 0x7E])) (·.r)
    = some #v[0, 0, 0, 0, 0, 12, 32317, 0] := by decide
theorem test_spfUnpack_length : seen (exec .spfUnpack (given [] [0x0C, 0x00, 0xC9])) (·.status)
    = some 0x0172#16 := by decide
theorem test_spPack :
    seen (exec .spPack (given [0, 1, 4000, 253, 56, 12] [0x11, 0x22, 0x33]))
      (fun t => (t.obuf, t.r[0], t.r[6], t.crcAcc)) = some (frame, 13, 60361, 0xEBC9#16) := by
  set_option maxRecDepth 20000 in decide
theorem test_spPack_wire_order :
    seen (exec .spPack (given [0, 0, 65536, 256] [0x11])) (·.status) = some 0x0149#16 := by decide
theorem test_spUnpack :
    seen (exec .spUnpack (given [] frame)) (fun t => (t.r, t.obuf, t.crcAcc))
      = some (#v[13, 1, 4000, 253, 56, 12, 60361, 0], [0x11, 0x22, 0x33], 0xEBC9#16) := by
  set_option maxRecDepth 20000 in decide
theorem test_spUnpack_checksum :
    seen (exec .spUnpack (given [] (frame.take 11 ++ [0x3D, 0x7E]))) (fun t => (t.status, t.crcAcc))
      = some (0x016C#16, 0xFFFF#16) := by set_option maxRecDepth 20000 in decide

/-! ### Steps -/

theorem test_step_fetches_placed_word :
    seen (step (State.reset.withFetchWord 8 0x23)) (fun t => (t.r[0], t.cp, t.pending))
      = some (65535, 1, []) := by decide
theorem test_step_reads_status :
    seen (step { hosting .gets with status := 0x016C#16 }) (·.replies)
      = some [.status 0x016C#16] := by decide

/-! ### Witnesses: for each obligation with hypotheses, concrete values that meet them, at the boundaries
of each clause -/

theorem witness_DecodeInvertsEncode :
    Instr.spUnpack.wellFormed = true ∧ decode 0x75 = .instr .spUnpack := by decide

/-- The listed ranges of 30_encoding.md R74, as the obligation writes them. -/
abbrev unlisted (n : Nat) : Prop :=
  (0x04 ≤ n ∧ n ≤ 0x0F) ∨ (0x17 ≤ n ∧ n ≤ 0x19) ∨ n = 0x1F ∨ (0x25 ≤ n ∧ n ≤ 0x2F) ∨
    (0x34 ≤ n ∧ n ≤ 0x3F) ∨ (0x44 ≤ n ∧ n ≤ 0x4F) ∨ (0x52 ≤ n ∧ n ≤ 0x5F) ∨
    (0x64 ≤ n ∧ n ≤ 0x6F) ∨ (0x76 ≤ n ∧ n ≤ 0x7F) ∨ 0x80 ≤ n

theorem witness_UnlistedOpcodesRaiseIllegal :
    ([0x04, 0x0F, 0x17, 0x19, 0x1F, 0x25, 0x2F, 0x34, 0x3F, 0x44, 0x4F, 0x52, 0x5F, 0x64, 0x6F,
      0x76, 0x7F, 0x80, 0xFF].all fun op : Byte => decide (unlisted op.toNat)) = true ∧
    ([0x00, 0x03, 0x10, 0x16, 0x1A, 0x1E, 0x20, 0x24, 0x30, 0x33, 0x40, 0x43, 0x50, 0x51, 0x60,
      0x63, 0x70, 0x75].any fun op : Byte => decide (unlisted op.toNat)) = false := by decide

theorem witness_StepRunsTheDecodedCommand :
    (hosting (.cmd 0x75)).pending = [.cmd 0x75] ∧ decode 0x75 = .instr .spUnpack ∧
      Instr.spUnpack.wellFormed = true ∧ (hosting (.cmd 0xFF)).pending = [.cmd 0xFF] ∧
      decode 0xFF = .illegalOpcode 0xFF := by decide

theorem witness_EveryActionAdvancesByOne :
    (hosting (.seta 7 (2 ^ 63 - 1))).pending = [.seta 7 (2 ^ 63 - 1)] ∧
      (HostAction.seta 7 (2 ^ 63 - 1)).wellFormed = true ∧ HostAction.reset.wellFormed = true := by
  decide

theorem witness_EndedRunStaysIdle : (given [1] [2]).pending = [] := by decide

theorem witness_HostActionsHaveTheirEffect :
    (hosting (.seta 7 (2 ^ 63 - 1))).pending = [.seta 7 (2 ^ 63 - 1)] ∧
      (hosting (.seta 0 (-(2 ^ 63)))).pending = [.seta 0 (-(2 ^ 63))] ∧
      (List.replicate 1024 (0 : Byte)).length ≤ 1024 ∧ ([] : Span).length ≤ 1024 ∧
      (hosting (.geta 7)).pending = [.geta 7] ∧ (hosting (.getr 0)).pending = [.getr 0] ∧
      (hosting .gets).pending = [.gets] ∧ (hosting .geti).pending = [.geti] ∧
      (hosting .geto).pending = [.geto] := by set_option maxRecDepth 20000 in decide

theorem witness_HostActionsHaveTheirEffect_load :
    (hosting (.load (List.replicate 1024 0))).pending = [.load (List.replicate 1024 0)] := rfl

theorem witness_InadmissibleActionsAreRefused :
    (hosting (.seta 8 0)).pending = [.seta 8 0] ∧ 8 ≤ 8 ∧ -(2 ^ 63) - 1 < (-(2 ^ 63) : Int) ∧
      (2 ^ 63 : Int) ≤ 2 ^ 63 ∧ 1024 < (List.replicate 1025 (0 : Byte)).length ∧
      (hosting (.geta 8)).pending = [.geta 8] ∧ (hosting (.getr 8)).pending = [.getr 8] := by
  set_option maxRecDepth 20000 in decide

theorem witness_ResetGivesTheResetValues : (hosting .reset).pending = [.reset] := by decide

theorem witness_EveryCommandWritesStatus :
    Instr.spUnpack ≠ .clrerr ∧ Instr.spUnpack ≠ .sreset ∧ Instr.clrerr = .clrerr := by decide

theorem witness_FailingCommandWritesOnlyStatus :
    (∃ t, runCommand 0x04 State.reset = .next t ∧ statusKind t.status ≠ 0) ∧
      ∃ t, runCommand 0x10 (given [4] []) = .next t ∧ statusKind t.status ≠ 0 :=
  ⟨⟨_, rfl, by decide⟩, ⟨_, rfl, by decide⟩⟩

theorem witness_NoResultDependsOnStatus :
    ∃ t, exec .bfPack (given [2, 10, 24, 1, 63, 0] []) = .next t := ⟨_, rfl⟩

theorem witness_CommandsWriteOnlyTheirState :
    (∃ t, exec .nop (given [1] [2]) = .next t) ∧ Instr.nop ≠ .sreset ∧ Instr.nop ≠ .xfer ∧
      Instr.nop ∉ crcWriters ∧ Instr.nop ∉ pn9Writers ∧ Instr.nop ∉ phaseWriters ∧
      Instr.nop ∉ histWriters ∧ Instr.nop ∉ spanWriters ∧ (7 : Fin 8) ∉ resultsWritten .spUnpack :=
  ⟨⟨_, rfl⟩, by decide⟩

theorem witness_SpanCommandsStartAfresh :
    (∃ t, exec .spUnpack (given [] [1]) = .next t ∧ statusKind t.status ≠ 0) ∧
      ∃ t, exec .crcSpan (given [] [1]) = .next t ∧ statusKind t.status = 0 :=
  ⟨⟨_, rfl, by decide⟩, ⟨_, rfl, by decide⟩⟩

theorem witness_CommandsWithoutEngineStateRepeat :
    Instr.xfer ∉ streamingCommands ∧ ∃ t, exec .xfer (given [] [1]) = .next t :=
  ⟨by decide, _, rfl⟩

/-- A good state that is not the reset state: a Checksum error recorded, every buffer and `R[0]` in
use, a command to perform. -/
def workingState : State :=
  { hosting (.cmd 0x24) with
    status := 0x016C#16
    r := (Vector.replicate 8 0).set 0 0xFFFFFFFF
    pn9 := 1
    ibuf := [1, 2]
    obuf := [3] }

theorem witness_StepKeepsGoodState :
    GoodState workingState ∧ ∃ t, step workingState = .next t :=
  ⟨⟨by decide, ⟨by decide, .inr ⟨⟨.checksum, .crc⟩, .inr ⟨.spUnpack, by decide⟩, by decide⟩⟩,
    by decide, by decide⟩, _, rfl⟩

theorem witness_StepKeepsDecoderHistory :
    ∃ s, DecoderHistoryFits s ∧ s.fecPhase = .primedEmpty ∧ s.pending = [.cmd 0x43] ∧
      s.ibuf.length = Config.fecGroup ∧ ∃ t, step s = .next t :=
  ⟨{ hosting (.cmd 0x43) with
      fecPhase := .primedEmpty
      fecHist := Config.fecCode.hist0
      ibuf := [1, 1, 1, 1] },
    ⟨fun _ => rfl, fun h => nomatch h⟩, rfl, rfl, rfl, _, rfl⟩

/-- The hypotheses of the second clause of `RaisesFirstRangeError`: the operand at position `n` of the
table is the first out of range. -/
abbrev firstOutOfRange (i : Instr) (s : State) (n : Nat) : Prop :=
  ComputedLengthFits i s ∧ n < (rangeTable i).length ∧ (∀ g ∈ (rangeTable i).take n, g.holds s) ∧
    ∀ g ∈ ((rangeTable i).drop n).take 1, ¬ g.holds s

theorem witness_BfPackResult :
    OperandsInRange .bfPack (given [3, 31, 31, 63, 63, 255] []) ∧
      OperandsInRange .bfPack (given [] []) ∧ firstOutOfRange .bfPack (given [4] []) 0 ∧
      firstOutOfRange .bfPack (given [3, 31, 31, 63, 63, 256] []) 5 := by decide

theorem witness_BfUnpackResult :
    (given [0, 0, 0, 0, 0, 0, 2 ^ 32 - 1] []).arg 6 = (2 ^ 32 - 1 : Nat) ∧ 2 ^ 32 - 1 < 2 ^ 32 ∧
      firstOutOfRange .bfUnpack (given [0, 0, 0, 0, 0, 0, 2 ^ 32] []) 0 := by decide

theorem witness_BitfieldRoundTrip :
    OperandsInRange .bfPack (given [3, 31, 31, 63, 63, 255] []) ∧
      OperandsInRange .bfUnpack (given [0, 0, 0, 0, 0, 0, 2 ^ 32 - 1] []) := by decide

theorem witness_PutHelperResults :
    (given [255] []).arg 0 = 255 ∧ (given [65535] []).arg 0 = 65535 ∧
      (given [4294967295] []).arg 0 = 4294967295 ∧ firstOutOfRange .putU8 (given [256] []) 0 ∧
      firstOutOfRange .putLe16 (given [65536] []) 0 ∧ firstOutOfRange .putBe16 (given [-1] []) 0 ∧
      firstOutOfRange .putLe32 (given [4294967296] []) 0 ∧
      firstOutOfRange .putBe32 (given [-1] []) 0 := by decide

theorem witness_GetHelperResults :
    (given [] [255]).ibuf = [255] ∧ (given [] [1, 2]).ibuf = [1, 2] ∧
      (given [] [1, 2, 3, 4]).ibuf = [1, 2, 3, 4] ∧ (given [] []).ibuf.length ≠ 1 ∧
      (given [] [1]).ibuf.length ≠ 2 ∧ (given [] [1, 2, 3, 4, 5]).ibuf.length ≠ 4 := by decide

theorem witness_ByteOrderRoundTrip :
    OperandsInRange .putU8 (given [255] []) ∧ OperandsInRange .putLe16 (given [65535] []) ∧
      OperandsInRange .putBe32 (given [2 ^ 32 - 1] []) ∧
      ∃ t, exec .getBe32 (given [] [255, 2, 3, 4]) = .next t ∧ statusKind t.status = 0 :=
  ⟨by decide, by decide, by decide, _, rfl, by decide⟩

theorem witness_CrcBitResult :
    (given [1] []).arg 0 = 1 ∧ (given [0] []).arg 0 = 0 ∧ firstOutOfRange .crcBit (given [2] []) 0 := by
  decide

theorem witness_CrcByteResult :
    (given [255] []).arg 0 = (255#8).toNat ∧ firstOutOfRange .crcByte (given [256] []) 0 := by decide

theorem witness_StreamingCrcEqualsSpanCrc :
    streamBytes [1] ∈ [streamBytes [1], streamSpanBits [1]] ∧
      streamSpanBits [1] ∈ [streamBytes [1], streamSpanBits [1]] := by simp

theorem witness_CrcSeesEverySingleBit :
    1 < (given [] [1, 2]).ibuf.length ∧ (∃ t, exec .crcSpan (given [] [1, 2]) = .next t) ∧
      ∃ u, exec .crcSpan ((given [] [1, 2]).loadSpan (flipBit [1, 2] 1 7)) = .next u :=
  ⟨by decide, ⟨_, rfl⟩, _, rfl⟩

theorem witness_WhitenResult :
    readByte (given [] [1, 2]).ibuf 1 = some 2 ∧ readByte (pn9Key 2) 1 = some 0xE1 := by decide

theorem witness_Pn9PeriodIs511 :
    (0x100#9 ≠ 0 ∧ (given [] [1]).pn9 ≠ 0) ∧ ∃ t, exec .whiten (given [] [1]) = .next t :=
  ⟨by decide, _, rfl⟩

theorem witness_FecEncodeResult :
    Config.fecGroup * (given [] (List.replicate 256 0)).ibuf.length ≤ Config.bufCap ∧
      Config.bufCap < Config.fecGroup * (given [] (List.replicate 257 0)).ibuf.length := by
  set_option maxRecDepth 20000 in decide

theorem witness_FecNewAndPrimeResults :
    State.reset.fecPhase = .unprimed ∧
      { State.reset with fecPhase := .accepting }.fecPhase ≠ .unprimed := by decide

/-- A primed decoder with a chunk in the input buffer. -/
def primedWith (chunk : Span) : State := { given [] chunk with fecPhase := .primedEmpty }

theorem witness_FecSubmitResult :
    State.reset.fecPhase = .unprimed ∧ (primedWith [1, 2, 3]).fecPhase ≠ .unprimed ∧
      (primedWith [1, 2, 3]).ibuf.length ≠ Config.fecGroup ∧
      (primedWith [1, 1, 1, 1, 1]).ibuf.length ≠ Config.fecGroup ∧
      (primedWith [1, 1, 1, 1]).ibuf.length = Config.fecGroup ∧
      (fecTest.step (primedWith [1, 1, 1, 1]).fecHist [1, 1, 1, 1]).isSome = true ∧
      (fecTest.step (primedWith [1, 1, 0, 0]).fecHist [1, 1, 0, 0]).isSome = false := by decide

theorem witness_FecPhaseTransitions :
    (∃ t, exec .fecPrime State.reset = .next t ∧ t.fecPhase ≠ State.reset.fecPhase) ∧
      ∃ t, exec .fecNew (primedWith []) = .next t ∧ t.fecPhase ≠ (primedWith []).fecPhase :=
  ⟨⟨_, rfl, by decide⟩, ⟨_, rfl, by decide⟩⟩

theorem witness_FecTestObeysTheLaws :
    3 < 4 ∧ 7 < 8 ∧ bitVotes [0x80, 0, 0x80, 0] 7 = 2 := by decide

theorem witness_AthPackResult :
    OperandsInRange .athPack (given [3, 31, 31, 63, 63] []) ∧
      firstOutOfRange .athPack (given [3, 31, 31, 63, 64] []) 4 ∧
      firstOutOfRange .athPack (given [-1] []) 0 := by decide

theorem witness_AthUnpackResult :
    (given [] [1, 2, 3, 4]).ibuf = [1, 2, 3, 4] ∧ (given [] [1, 2, 3]).ibuf.length ≠ 4 ∧
      (given [] [1, 2, 3, 4, 5]).ibuf.length ≠ 4 := by decide

theorem witness_AddressedHeaderRoundTrip :
    OperandsInRange .athPack (given [3, 31, 31, 63, 63] []) ∧
      (given [] [1, 2, 3, 255]).ibuf = [1, 2, 3, 255] := by decide

theorem witness_CphPackResult :
    OperandsInRange .cphPack (given [6, 0, 0, 0, 0] []) ∧
      OperandsInRange .cphPack (given [251, 65535, 65535, 255, 255] []) ∧
      firstOutOfRange .cphPack (given [5] []) 0 ∧ firstOutOfRange .cphPack (given [252] []) 0 ∧
      firstOutOfRange .cphPack (given [251, 65535, 65535, 255, 256] []) 4 := by decide

theorem witness_CphUnpackResult :
    (∀ b ∈ [(6 : Byte), 251], 6 ≤ b.toNat ∧ b.toNat ≤ 251) ∧
      (∀ b ∈ [(5 : Byte), 252], ¬ (6 ≤ b.toNat ∧ b.toNat ≤ 251)) ∧
      (given [] [251, 0, 0, 0, 0, 0, 0]).ibuf = [251, 0, 0, 0, 0, 0, 0] ∧
      (given [] [6, 0, 0, 0, 0, 0]).ibuf.length ≠ 7 ∧
      (given [] [6, 0, 0, 0, 0, 0, 0, 0]).ibuf.length ≠ 7 := by decide

theorem witness_CpPackResult :
    OperandsInRange .cpPack (given [-1, 65535, 65535, 255, 255] (List.replicate 245 7)) ∧
      ¬ ComputedLengthFits .cpPack (given [] (List.replicate 246 7)) ∧
      firstOutOfRange .cpPack (given [0, 65536] []) 0 ∧
      firstOutOfRange .cpPack (given [0, 65535, 65535, 255, -1] []) 3 := by
  set_option maxRecDepth 20000 in decide

theorem witness_CpUnpackResult :
    (given [] ([251, 0, 0, 0, 0, 0, 0] ++ List.replicate 245 7)).ibuf
        = [251, 0, 0, 0, 0, 0, 0] ++ List.replicate 245 7 ∧
      (251 : Byte).toNat = 7 + (List.replicate 245 (7 : Byte)).length - 1 ∧
      (6 : Byte).toNat = 7 + ([] : Span).length - 1 ∧ (7 : Byte).toNat ≠ 7 + ([] : Span).length - 1 ∧
      ¬ (6 ≤ (5 : Byte).toNat ∧ (5 : Byte).toNat ≤ 251) ∧
      (given [] [6, 0, 0, 0, 0, 0]).ibuf.length < 7 := by set_option maxRecDepth 20000 in decide

theorem witness_ClientPacketRoundTrip :
    OperandsInRange .cpPack (given [0, 65535, 65535, 255, 255] (List.replicate 245 7)) ∧
      ∃ t, exec .cpUnpack (given [] [7, 1, 2, 3, 4, 5, 6, 7]) = .next t ∧ statusKind t.status = 0 :=
  ⟨by set_option maxRecDepth 20000 in decide, _, rfl, by decide⟩

theorem witness_SphPackResult :
    OperandsInRange .sphPack (given [10, 0, 0, 0, 0] []) ∧
      OperandsInRange .sphPack (given [251, 1, 65535, 255, 255] []) ∧
      firstOutOfRange .sphPack (given [9] []) 0 ∧ firstOutOfRange .sphPack (given [252] []) 0 ∧
      firstOutOfRange .sphPack (given [251, 2] []) 1 := by decide

theorem witness_SphUnpackResult :
    (∀ b ∈ [(10 : Byte), 251], 10 ≤ b.toNat ∧ b.toNat ≤ 251) ∧
      (∀ b ∈ [(9 : Byte), 252], ¬ (10 ≤ b.toNat ∧ b.toNat ≤ 251)) ∧ (1 : Byte).toNat ≤ 1 ∧
      1 < (2 : Byte).toNat ∧ (given [] [10, 1, 0, 0, 0, 0]).ibuf = [10, 1, 0, 0, 0, 0] ∧
      (given [] [10, 1, 0, 0, 0]).ibuf.length ≠ 6 ∧
      (given [] [10, 1, 0, 0, 0, 0, 0]).ibuf.length ≠ 6 := by decide

theorem witness_FooterCodecResults :
    OperandsInRange .spfPack (given [0, 0, 0, 0, 0, 65535, 65535] []) ∧
      firstOutOfRange .spfPack (given [0, 0, 0, 0, 0, 65536, 0] []) 0 ∧
      firstOutOfRange .spfPack (given [0, 0, 0, 0, 0, 65535, -1] []) 1 ∧
      (given [] [1, 2, 3, 4]).ibuf = [1, 2, 3, 4] ∧ (given [] [1, 2, 3]).ibuf.length ≠ 4 := by decide

theorem witness_SpPackResult :
    OperandsInRange .spPack (given [-1, 1, 65535, 255, 255, 65535] (List.replicate 241 7)) ∧
      ¬ ComputedLengthFits .spPack (given [] (List.replicate 242 7)) ∧
      firstOutOfRange .spPack (given [0, 2] []) 0 ∧
      firstOutOfRange .spPack (given [0, 1, 65535, 255, 255, 65536] []) 4 := by
  set_option maxRecDepth 20000 in decide

theorem witness_SpUnpackResult :
    (given [] []).ibuf.length < 10 ∧ (given [] (frame.take 9)).ibuf.length < 10 ∧
      (given [] frame).ibuf
        = [0x0D, 0x01, 0xA0, 0x0F, 0xFD, 0x38] ++ [0x11, 0x22, 0x33] ++ [0x0C, 0x00, 0xC9, 0xEB] ∧
      (10 ≤ (0x0D : Byte).toNat ∧ (0x0D : Byte).toNat ≤ 251) ∧ (0x01 : Byte).toNat ≤ 1 ∧
      (0x0D : Byte).toNat = ([0x11, 0x22, 0x33] : Span).length + 10 ∧
      (0xC9 : Byte).toNat + 256 * (0xEB : Byte).toNat
        = crcDocument ([0x0D, 0x01, 0xA0, 0x0F, 0xFD, 0x38] ++ [0x11, 0x22, 0x33]) ∧
      (0x3D : Byte).toNat + 256 * (0x7E : Byte).toNat
        ≠ crcDocument ([0x0D, 0x01, 0xA0, 0x0F, 0xFD, 0x38] ++ [0x11, 0x22, 0x33]) ∧
      (0x0E : Byte).toNat ≠ ([0x11, 0x22, 0x33] : Span).length + 10 ∧ 1 < (2 : Byte).toNat ∧
      (∀ b ∈ [(9 : Byte), 252], ¬ (10 ≤ b.toNat ∧ b.toNat ≤ 251)) := by
  set_option maxRecDepth 20000 in decide

theorem witness_SpacePacketRoundTrip :
    OperandsInRange .spPack (given [0, 1, 65535, 255, 255, 65535] (List.replicate 241 7)) := by
  set_option maxRecDepth 20000 in decide

theorem witness_ChangedByteIsDetected :
    OperandsInRange .spPack (given [0, 1, 4000, 253, 56, 12] [0x11, 0x22, 0x33]) ∧
      ∃ t, exec .spPack (given [0, 1, 4000, 253, 56, 12] [0x11, 0x22, 0x33]) = .next t ∧
        t.obuf = frame ∧ 8 + 4 < t.obuf.length ∧ readByte t.obuf 8 = some 0x33 :=
  ⟨by decide, _, rfl, by set_option maxRecDepth 20000 in decide,
    by set_option maxRecDepth 20000 in decide, by set_option maxRecDepth 20000 in decide⟩

/-- The clauses for the length byte, the port byte and the last byte before the footer, each at the
boundary values of the new byte. -/
theorem witness_ChangedByteIsDetected_boundaries :
    (readByte frame 0 = some 0x0D ∧ 0 + 4 < frame.length ∧
      ([10, 251].all fun new : Byte => new ≠ 0x0D ∧ 10 ≤ new.toNat ∧ new.toNat ≤ 251) ∧
      ([0, 9, 252, 255].all fun new : Byte =>
        new ≠ 0x0D ∧ ¬ (10 ≤ new.toNat ∧ new.toNat ≤ 251))) ∧
    (readByte frame 1 = some 0x01 ∧
      ([2, 255].all fun new : Byte => new ≠ 0x01 ∧ 1 < new.toNat) ∧
      (0 : Byte) ≠ 0x01 ∧ ¬ 1 < (0 : Byte).toNat) ∧
    (readByte frame 8 = some 0x33 ∧ 8 + 4 < frame.length ∧ ¬ 9 + 4 < frame.length ∧
      (0x32 : Byte) ≠ 0x33) := by decide

/-- A code for the witness below: each byte with three zeros after it. -/
def paddedCode : FecCode where
  hist0 := ⟨0⟩
  encode p := ⟨(p.flatMap fun b => [b, 0#8, 0#8, 0#8]).toArray, by
    simp [List.length_flatMap, Config.fecGroup, Nat.mul_comm]⟩
  step h chunk := some (h, oneByteSpan (chunk.headD 0))

theorem paddedCode_chunks (p : Span) :
    chunksOf (paddedCode.encode p).toList = p.map fun b => [b, 0#8, 0#8, 0#8] := by
  have drops : ∀ (q : Span) (k : Nat),
      memRead (q.flatMap fun b => [b, 0#8, 0#8, 0#8]) (4 * k) 4
        = ((q[k]?).map fun b => [b, 0#8, 0#8, 0#8]).getD [] := by
    intro q
    induction q with
    | nil => intro k; simp [memRead]
    | cons b q ih =>
      intro k
      cases k with
      | zero => simp [memRead]
      | succ k => simpa [memRead, Nat.mul_add] using ih k
  apply List.ext_getElem
  · simp [chunksOf, paddedCode, Config.fecGroup]
  · intro k hk _
    simp [chunksOf, paddedCode, Config.fecGroup] at hk ⊢
    simp [drops, hk]

theorem paddedCode_submits (h : FecHist) (p : Span) :
    submitSpans paddedCode h (p.map fun b => [b, 0#8, 0#8, 0#8]) = some (p.map fun b => [b]) := by
  induction p with
  | nil => rfl
  | cons b p ih => simp_all [submitSpans, paddedCode, oneByteSpan]

theorem witness_LinkChainIsIdentity :
    SoundOnCleanInput paddedCode ∧ ZeroLatency paddedCode ∧
      OperandsInRange .spPack (given [0, 1, 65535, 255, 255, 65535] (List.replicate 241 7)) ∧
      statusSticky State.reset.status = 0 := by
  refine ⟨fun p => ⟨_, paddedCode_chunks p ▸ paddedCode_submits _ p, ?_⟩, fun p outs h => ?_,
    by set_option maxRecDepth 20000 in decide, by decide⟩
  · induction p <;> simp_all
  · rw [paddedCode_chunks, paddedCode_submits] at h
    cases h
    simp

end Sys2Proof.Tests
end

section
/-! SUPPORT. What each command, each host action and each step can do, said once: what it raises, what it
writes, and what stays within its range. Every statement about the state rests on `exec_runs` and
`step_preserves`. -/

namespace Sys2Proof.Machine

/-! ### `STATUS` words -/

theorem statusIsSuccess_statusOk (w : BitVec 16) : StatusIsSuccess w (statusOk w) := by
  simp [StatusIsSuccess]

theorem statusIsError_statusRaise (w : BitVec 16) (e : CmdError) :
    StatusIsError w (statusRaise w e) e := by
  simp [StatusIsError]

theorem statusLegal_zero : StatusLegal 0 := ⟨by decide, .inl (by decide)⟩

theorem statusLegal_statusOk {w : BitVec 16} (h : StatusLegal w) : StatusLegal (statusOk w) :=
  ⟨by simpa using h.1, .inl (by simp)⟩

theorem statusLegal_statusRaise {w : BitVec 16} {e : CmdError} (h : StatusLegal w)
    (he : SomeCommandRaises e) : StatusLegal (statusRaise w e) :=
  ⟨by simpa using h.1, .inr ⟨e, he, by simp⟩⟩

/-! ### Result registers (10_state.md R21, R22) -/

/-- Every result register holds an unsigned 32-bit value (10_state.md R21). -/
def ResultsBelow (s : State) : Prop := ∀ k : Fin 8, (s.r[k]).toNat < 2 ^ 32

theorem toNat_wordOfNat_lt {n : Nat} (h : n < 2 ^ 32) : (wordOfNat n).toNat < 2 ^ 32 := by
  rw [wordOfNat, BitVec.toNat_ofNat]
  exact (Nat.mod_le _ _).trans_lt h

theorem toNat_setWidth_lt {w : Nat} (v : BitVec w) (hw : w ≤ 32) :
    (v.setWidth 64).toNat < 2 ^ 32 := by
  rw [BitVec.toNat_setWidth]
  calc v.toNat % 2 ^ 64 ≤ v.toNat := Nat.mod_le _ _
    _ < 2 ^ w := v.isLt
    _ ≤ 2 ^ 32 := Nat.pow_le_pow_right (by decide) hw

theorem resultsBelow_setR {s : State} {i : Fin 8} {v : Word} (hv : v.toNat < 2 ^ 32)
    (h : ResultsBelow s) : ResultsBelow (s.setR i v) := by
  intro k
  by_cases hik : i = k
  · simpa [hik] using hv
  · have hne : (i : Nat) ≠ k := fun heq => hik (Fin.ext heq)
    simpa [Vector.getElem_set, hne] using h k

theorem resultsBelow_setResults {s : State} {first : Nat} {vs : List Word}
    (hvs : ∀ v ∈ vs, v.toNat < 2 ^ 32) (h : ResultsBelow s) : ResultsBelow (s.setResults first vs) := by
  intro k
  simp only [State.setResults_r, Fin.getElem_fin, writeFrom_getElem]
  split
  · exact hvs _ (List.getElem_mem _)
  · exact h k

theorem setR_r_of_ne (s : State) {i k : Fin 8} (v : Word) (h : k ≠ i) :
    (s.setR i v).r[k] = s.r[k] := by
  have hne : (i : Nat) ≠ k := fun heq => h (Fin.ext heq.symm)
  simp [hne]

theorem setResults_r_of_outside (s : State) {first n : Nat} {vs : List Word} (hn : vs.length = n)
    {k : Fin 8} (h : ¬ (first ≤ k ∧ k < first + n)) : (s.setResults first vs).r[k] = s.r[k] := by
  simp only [State.setResults_r, Fin.getElem_fin, writeFrom_getElem]
  rw [dif_neg (by omega)]

theorem toNat_mem_map_setWidth_lt {vs : List (BitVec 32)} :
    ∀ v ∈ vs.map (·.setWidth 64), v.toNat < 2 ^ 32 := by
  simp only [List.mem_map]
  rintro _ ⟨v, -, rfl⟩
  exact toNat_setWidth_lt v le_rfl

theorem byteWord_below (B : Span) (i : Nat) : (wordOfNat (byteAt B i)).toNat < 2 ^ 32 :=
  toNat_wordOfNat_lt ((byteAt_lt B i).trans (by decide))

theorem le16Word_below (B : Span) (off : Nat) : (wordOfNat (le16At B off)).toNat < 2 ^ 32 :=
  toNat_wordOfNat_lt ((le16At_lt B off).trans (by decide))

theorem clientFields_below (B : Span) : ∀ v ∈ clientFields B, v.toNat < 2 ^ 32 := by
  simp only [clientFields, List.forall_mem_cons, byteWord_below, le16Word_below, true_and]
  exact List.forall_mem_nil _

theorem spaceFields_below (B : Span) : ∀ v ∈ spaceFields B, v.toNat < 2 ^ 32 := by
  simp only [spaceFields, List.forall_mem_cons, byteWord_below, le16Word_below, true_and]
  exact List.forall_mem_nil _

/-! ### The whitening register is never 0 (10_state.md R28) -/

/-- Bits 8 to 1 after the advance are bits 7 to 0 before it, and where all of those are 0 the feedback
bit is the old bit 8. -/
theorem pn9Step_ne_zero {S : BitVec 9} (h : S ≠ 0) : (pn9Step S).1 ≠ 0 := by
  contrapose! h
  have hzero (i : Nat) : (pn9Step S).1.getLsbD i = false := by simp [h]
  have hlow (i : Nat) (hi : i < 8) : S[i] = false := by
    simpa [pn9Step, Nat.succ_lt_succ hi] using hzero (i + 1)
  have htop : S[8] = false := by
    simpa [pn9Step, hlow 3] using hzero 0
  ext i hi
  rcases Nat.lt_succ_iff_lt_or_eq.1 hi with hi | rfl
  · simpa using hlow i hi
  · simpa using htop

theorem pn9Bits_ne_zero {S : BitVec 9} (h : S ≠ 0) (n : Nat) : (pn9Bits n S).1 ≠ 0 := by
  induction n with
  | zero => exact h
  | succ n ih => exact pn9Step_ne_zero ih

theorem pn9After_ne_zero {S : BitVec 9} (h : S ≠ 0) (n : Nat) : pn9After n S ≠ 0 := by
  induction n generalizing S with
  | zero => exact h
  | succ n ih => exact ih (pn9Bits_ne_zero h 8)

/-! ### What a command that succeeds may change -/

/-- What a command that succeeds from `s` with `t` as its result, `STATUS` not yet written, leaves as it was
(10_state.md R31), and the ranges it keeps. -/
structure Effect (i : Instr) (s t : State) : Prop where
  host : SameHost s t
  freeCount : t.freeCount = s.freeCount
  a : t.a = s.a
  r : ∀ k : Fin 8, k ∉ resultsWritten i → t.r[k] = s.r[k]
  crcAcc : i ∉ crcWriters → t.crcAcc = s.crcAcc
  pn9 : i ∉ pn9Writers → t.pn9 = s.pn9
  fecPhase : i ∉ phaseWriters → t.fecPhase = s.fecPhase
  fecHist : i ∉ histWriters → t.fecHist = s.fecHist
  ibuf : i ≠ .xfer → t.ibuf = s.ibuf
  obuf : i ∉ spanWriters → t.obuf = s.obuf
  wf : Memory.wf s = true → Memory.wf t = true
  pn9_ne_zero : s.pn9 ≠ 0 → t.pn9 ≠ 0
  results : ResultsBelow s → ResultsBelow t

section
variable {i : Instr} {s t : State}

/-- A command that writes nothing. -/
theorem Effect.nothing : Effect i s s where
  host := ⟨rfl, rfl, rfl⟩
  freeCount := rfl
  a := rfl
  r _ _ := rfl
  crcAcc _ := rfl
  pn9 _ := rfl
  fecPhase _ := rfl
  fecHist _ := rfl
  ibuf _ := rfl
  obuf _ := rfl
  wf := id
  pn9_ne_zero := id
  results := id

theorem Effect.setR (h : Effect i s t) {k : Fin 8} {v : Word} (hk : k ∈ resultsWritten i)
    (hv : v.toNat < 2 ^ 32) : Effect i s (t.setR k v) :=
  { h with
    r := fun j hj => (setR_r_of_ne t v fun hjk => hj (by rwa [hjk])).trans (h.r j hj)
    results := fun hs => resultsBelow_setR hv (h.results hs) }

theorem Effect.setResults (h : Effect i s t) {first n : Nat} {vs : List Word} (hn : vs.length = n)
    (hk : ∀ k : Fin 8, first ≤ k → k < first + n → k ∈ resultsWritten i)
    (hvs : ∀ v ∈ vs, v.toNat < 2 ^ 32) : Effect i s (t.setResults first vs) :=
  { h with
    r := fun j hj => (setResults_r_of_outside t hn fun hj' => hj (hk j hj'.1 hj'.2)).trans (h.r j hj)
    results := fun hs => resultsBelow_setResults hvs (h.results hs) }

theorem Effect.memWrite (h : Effect i s t) {B : Span} (hi : i ∈ spanWriters)
    (hB : Memory.wf s = true → B.length ≤ Config.bufCap) : Effect i s (t.memWrite B) :=
  { h with
    obuf := fun hn => absurd hi hn
    wf := fun hs => Memory.wf_memWrite (h.wf hs) (hB hs) }

theorem Effect.setCrcAcc (h : Effect i s t) (c : BitVec 16) (hi : i ∈ crcWriters) :
    Effect i s { t with crcAcc := c } :=
  { h with crcAcc := fun hn => absurd hi hn }

theorem Effect.setPn9 (h : Effect i s t) {S : BitVec 9} (hi : i ∈ pn9Writers)
    (hS : s.pn9 ≠ 0 → S ≠ 0) : Effect i s { t with pn9 := S } :=
  { h with
    pn9 := fun hn => absurd hi hn
    pn9_ne_zero := hS }

theorem Effect.setFecPhase (h : Effect i s t) (p : FecPhase) (hi : i ∈ phaseWriters) :
    Effect i s { t with fecPhase := p } :=
  { h with fecPhase := fun hn => absurd hi hn }

theorem Effect.setFecHist (h : Effect i s t) (d : FecHist) (hi : i ∈ histWriters) :
    Effect i s { t with fecHist := d } :=
  { h with fecHist := fun hn => absurd hi hn }

theorem Effect.withStatus (h : Effect i s t) (w : BitVec 16) : Effect i s { t with status := w } :=
  { h with }

/-- A part of the input span fits the output buffer. -/
theorem memRead_fits (off n : Nat) (h : Memory.wf s = true) :
    (memRead s.ibuf off n).length ≤ Config.bufCap := by
  have hcap := ((Memory.wf_iff s).1 h).1
  rw [memRead_length]
  omega

theorem Effect.xfer : Effect .xfer s (s.loadSpan s.obuf) :=
  { Effect.nothing with
    ibuf := fun hn => absurd rfl hn
    wf := Memory.wf_xfer }

end

/-- All a command other than CLRERR and SRESET can do: it raises one of its errors, or it has its effect
and succeeds; which of the two, and the effect, are the same whatever `STATUS` held (10_state.md R25,
R26). -/
inductive Runs (i : Instr) (s : State) : Prop
  | raises (e : CmdError) (legal : e ∈ legalErrors i)
      (exec_eq : ∀ w, exec i { s with status := w } = .next ({ s with status := w }.raise e))
  | succeeds (t : State) (effect : Effect i s t)
      (exec_eq : ∀ w, exec i { s with status := w } = .next { t with status := w }.succeed)

/-- A command in the form `State.command` runs so, where its legal errors are those of its checks, in their
order, and neither the checks nor the effect looks at `STATUS`. -/
theorem runs_of_command {i : Instr} {checks : State → List Check} {effect : State → State → State}
    {s : State} (exec_eq : ∀ s, exec i s = .next (s.command (checks s) (effect s)))
    (errors : (checks s).map Check.error = legalErrors i)
    (checks_eq : ∀ w, checks { s with status := w } = checks s)
    (effect_eq : ∀ w, effect { s with status := w } { s with status := w }
      = { effect s s with status := w })
    (outcome : (∀ c ∈ checks s, c.holds = true) → Effect i s (effect s s)) : Runs i s := by
  cases h : firstError (checks s) with
  | some e =>
    obtain ⟨c, hc, rfl⟩ := error_mem_of_firstError h
    refine .raises c.error (errors ▸ List.mem_map_of_mem hc) fun w => ?_
    rw [exec_eq, State.command_of_error _ _ (by rw [checks_eq, h])]
  | none =>
    have hall := (firstError_eq_none_iff _).1 h
    refine .succeeds (effect s s) (outcome hall) fun w => ?_
    rw [exec_eq, State.command_of_holds _ _ (by rwa [checks_eq]), effect_eq]

/-! ### The commands, one after the other -/

/-! #### System -/

theorem runs_nop (s : State) : Runs .nop s :=
  runs_of_command (fun _ => rfl) rfl (fun _ => rfl) (fun _ => rfl) fun _ => .nothing

theorem runs_xfer (s : State) : Runs .xfer s :=
  runs_of_command (fun _ => rfl) rfl (fun _ => rfl) (fun _ => rfl) fun _ => .xfer

/-! #### Bitfield codec and byte order -/

theorem runs_bfPack (s : State) : Runs .bfPack s :=
  runs_of_command (fun _ => rfl) rfl (fun _ => rfl) (fun _ => rfl) fun _ =>
    Effect.nothing.setR (by decide) (toNat_setWidth_lt _ le_rfl)

theorem runs_bfUnpack (s : State) : Runs .bfUnpack s :=
  runs_of_command (fun _ => rfl) rfl (fun _ => rfl) (fun _ => rfl) fun _ =>
    Effect.nothing.setResults (n := 6) rfl (by decide) toNat_mem_map_setWidth_lt

/-- The PUT helpers, whose bytes are a function of the state without `STATUS`. -/
theorem runs_putValue {i : Instr} {s : State} {top : Int} {bytes : State → Span}
    (exec_eq : ∀ s, exec i s = .next (putValue s top (bytes s)))
    (errors : [⟨.range, .value⟩] = legalErrors i)
    (bytes_eq : ∀ w, bytes { s with status := w } = bytes s)
    (hi : i ∈ spanWriters) (hB : (bytes s).length ≤ 4) : Runs i s :=
  runs_of_command (effect := fun s t => t.memWrite (bytes s)) exec_eq errors (fun _ => rfl)
    (fun w => congrArg (State.memWrite { s with status := w }) (bytes_eq w)) fun _ =>
    Effect.nothing.memWrite hi fun _ => hB.trans (by decide)

/-- The GET helpers, whose integer is a function of the input span. -/
theorem runs_getValue {i : Instr} {s : State} {size : Nat} {value : Span → Nat}
    (exec_eq : ∀ s, exec i s = .next (getValue s size (value s.ibuf)))
    (errors : [⟨.length, .inputSpan⟩] = legalErrors i)
    (hi : 0 ∈ resultsWritten i) (hv : value s.ibuf < 2 ^ 32) : Runs i s :=
  runs_of_command (effect := fun s t => t.setR 0 (wordOfNat (value s.ibuf))) exec_eq errors
    (fun _ => rfl) (fun _ => rfl) fun _ => Effect.nothing.setR hi (toNat_wordOfNat_lt hv)

theorem runs_putU8 (s : State) : Runs .putU8 s :=
  runs_putValue (fun _ => rfl) rfl (fun _ => rfl) (by decide) (by simp)

theorem runs_putLe16 (s : State) : Runs .putLe16 s :=
  runs_putValue (fun _ => rfl) rfl (fun _ => rfl) (by decide) (by simp)

theorem runs_putBe16 (s : State) : Runs .putBe16 s :=
  runs_putValue (fun _ => rfl) rfl (fun _ => rfl) (by decide) (by simp)

theorem runs_putLe32 (s : State) : Runs .putLe32 s :=
  runs_putValue (fun _ => rfl) rfl (fun _ => rfl) (by decide) (by simp)

theorem runs_putBe32 (s : State) : Runs .putBe32 s :=
  runs_putValue (fun _ => rfl) rfl (fun _ => rfl) (by decide) (by simp)

theorem runs_getU8 (s : State) : Runs .getU8 s :=
  runs_getValue (value := (byteAt · 0)) (fun _ => rfl) rfl (by decide)
    ((byteAt_lt _ _).trans (by decide))

theorem runs_getLe16 (s : State) : Runs .getLe16 s :=
  runs_getValue (value := (le16At · 0)) (fun _ => rfl) rfl (by decide)
    ((le16At_lt _ _).trans (by decide))

theorem runs_getBe16 (s : State) : Runs .getBe16 s :=
  runs_getValue (value := (be16At · 0)) (fun _ => rfl) rfl (by decide)
    ((be16At_lt _ _).trans (by decide))

theorem runs_getLe32 (s : State) : Runs .getLe32 s :=
  runs_getValue (value := (le32At · 0)) (fun _ => rfl) rfl (by decide) (le32At_lt _ _)

theorem runs_getBe32 (s : State) : Runs .getBe32 s :=
  runs_getValue (value := (be32At · 0)) (fun _ => rfl) rfl (by decide) (be32At_lt _ _)

/-! #### CRC -/

theorem runs_crcInit (s : State) : Runs .crcInit s :=
  runs_of_command (fun _ => rfl) rfl (fun _ => rfl) (fun _ => rfl) fun _ =>
    Effect.nothing.setCrcAcc _ (by decide)

theorem runs_crcBit (s : State) : Runs .crcBit s :=
  runs_of_command (fun _ => rfl) rfl (fun _ => rfl) (fun _ => rfl) fun _ =>
    Effect.nothing.setCrcAcc _ (by decide)

theorem runs_crcByte (s : State) : Runs .crcByte s :=
  runs_of_command (fun _ => rfl) rfl (fun _ => rfl) (fun _ => rfl) fun _ =>
    Effect.nothing.setCrcAcc _ (by decide)

theorem crcWire_fits (c : BitVec 16) : (crcWire c).length ≤ Config.bufCap := by
  rw [crcWire_length]; decide

theorem runs_crcRead (s : State) : Runs .crcRead s :=
  runs_of_command (fun _ => rfl) rfl (fun _ => rfl) (fun _ => rfl) fun _ =>
    (Effect.nothing.setR (by decide) (toNat_setWidth_lt _ (by decide))).memWrite (by decide)
      fun _ => crcWire_fits _

theorem runs_crcSpan (s : State) : Runs .crcSpan s :=
  runs_of_command (fun _ => rfl) rfl (fun _ => rfl) (fun _ => rfl) fun _ =>
    ((Effect.nothing.setR (by decide) (toNat_setWidth_lt _ (by decide))).memWrite (by decide)
      fun _ => crcWire_fits _).setCrcAcc _ (by decide)

/-! #### Whitening -/

theorem runs_pn9Seed (s : State) : Runs .pn9Seed s :=
  runs_of_command (fun _ => rfl) rfl (fun _ => rfl) (fun _ => rfl) fun _ =>
    Effect.nothing.setPn9 (by decide) fun _ => by decide

theorem runs_pn9Bit (s : State) : Runs .pn9Bit s :=
  runs_of_command (fun _ => rfl) rfl (fun _ => rfl) (fun _ => rfl) fun _ =>
    (Effect.nothing.setR (by decide) (toNat_setWidth_lt _ (by decide))).setPn9 (by decide)
      pn9Step_ne_zero

theorem runs_pn9Byte (s : State) : Runs .pn9Byte s :=
  runs_of_command (fun _ => rfl) rfl (fun _ => rfl) (fun _ => rfl) fun _ =>
    (Effect.nothing.setR (by decide) (toNat_setWidth_lt _ (by decide))).setPn9 (by decide)
      fun h => pn9Bits_ne_zero h 8

theorem runs_whiten (s : State) : Runs .whiten s :=
  runs_of_command (fun _ => rfl) rfl (fun _ => rfl) (fun _ => rfl) fun _ =>
    (Effect.nothing.memWrite (by decide) fun hs => by
      rw [whitenSpan_length]
      exact ((Memory.wf_iff s).1 hs).1).setPn9 (by decide) fun _ => by
        rw [whitenFrom_eq]
        exact pn9After_ne_zero (by decide) _

/-! #### FEC -/

theorem runs_fecEncode (s : State) : Runs .fecEncode s :=
  runs_of_command (effect := fun _ t => t.memWrite (Config.fecCode.encode t.ibuf).toList)
    (fun _ => rfl) rfl (fun _ => rfl) (fun _ => rfl) fun h =>
    Effect.nothing.memWrite (by decide) fun _ => by
      rw [Vector.length_toList]
      exact of_decide_eq_true (h _ List.mem_cons_self)

theorem runs_fecNew (s : State) : Runs .fecNew s :=
  runs_of_command (fun _ => rfl) rfl (fun _ => rfl) (fun _ => rfl) fun _ =>
    Effect.nothing.setFecPhase _ (by decide)

theorem runs_fecPrime (s : State) : Runs .fecPrime s :=
  runs_of_command (fun _ => rfl) rfl (fun _ => rfl) (fun _ => rfl) fun _ =>
    (((Effect.nothing (i := .fecPrime)).memWrite (B := []) (by decide) fun _ => by decide).setFecHist
      Config.fecCode.hist0 (by decide)).setFecPhase .primedEmpty (by decide)

/-- All FEC.SUBMIT can do, whatever `STATUS` holds (43_fec.md R177): it raises a Desync, or the code accepts
a chunk of `FEC_GROUP` bytes out of a primed history. -/
theorem fecSubmitWith_cases (code : FecCode) (s : State) :
    (∃ e ∈ legalErrors .fecSubmit,
      ∀ w, fecSubmitWith code { s with status := w } = { s with status := w }.raise e) ∨
    ∃ h out, s.fecPhase ≠ .unprimed ∧ s.ibuf.length = Config.fecGroup ∧
      code.step s.fecHist s.ibuf = some (h, out) ∧
      ∀ w, fecSubmitWith code { s with status := w } =
        { s.memWrite out.1 with fecHist := h, fecPhase := .accepting, status := w }.succeed := by
  by_cases hp : s.fecPhase = .unprimed
  · exact .inl ⟨⟨.desync, .sequence⟩, by decide, fun w => by
      simp [fecSubmitWith, firstError, hp, State.finish]⟩
  by_cases hn : s.ibuf.length = Config.fecGroup
  · cases hstep : code.step s.fecHist s.ibuf with
    | none => exact .inl ⟨⟨.desync, .chunk⟩, by decide, fun w => by
        simp [fecSubmitWith, firstError, hp, hn, hstep, State.ilen, State.finish]⟩
    | some p => exact .inr ⟨p.1, p.2, hp, hn, rfl, fun w => by
        simp [fecSubmitWith, firstError, hp, hn, hstep, State.ilen, State.finish, State.memWrite]⟩
  · exact .inl ⟨⟨.desync, .chunk⟩, by decide, fun w => by
      simp [fecSubmitWith, firstError, hp, hn, State.ilen, State.finish]⟩

theorem runs_fecSubmit (s : State) : Runs .fecSubmit s := by
  rcases fecSubmitWith_cases Config.fecCode s with
    ⟨e, he, heq⟩ | ⟨h, out, -, -, -, heq⟩
  · exact .raises e he fun w => congrArg Host.Outcome.next (heq w)
  · exact .succeeds _
      (((Effect.nothing.memWrite (by decide) fun _ => out.2).setFecHist h (by decide)).setFecPhase
        .accepting (by decide)) fun w => congrArg Host.Outcome.next (heq w)

/-! #### Addressed header -/

theorem runs_athPack (s : State) : Runs .athPack s :=
  runs_of_command (fun _ => rfl) rfl (fun _ => rfl) (fun _ => rfl) fun _ =>
    Effect.nothing.memWrite (by decide) fun _ => by rw [be32_length]; decide

theorem runs_athUnpack (s : State) : Runs .athUnpack s :=
  runs_of_command (fun _ => rfl) rfl (fun _ => rfl) (fun _ => rfl) fun _ =>
    Effect.nothing.setResults (n := 5) rfl (by decide) toNat_mem_map_setWidth_lt

/-! #### Client packet -/

@[simp] theorem clientHeader_length (s : State) (b : Byte) : (clientHeader s b).length = 7 := rfl

/-- The length check of CP.PACK bounds the payload. -/
theorem length_le_of_clientLengthCheck {n : Nat}
    (h : (clientLengthCheck (clientLength n)).holds = true) : n ≤ Config.cpPayloadMax := by
  have hle := ((rangeCheck_holds_iff _ _ _ _).1 h).2
  simp only [clientLength, Config.cpHdrLen, Config.cpLenMax, Config.cpPayloadMax] at hle ⊢
  omega

theorem runs_cphPack (s : State) : Runs .cphPack s :=
  runs_of_command (fun _ => rfl) rfl (fun _ => rfl) (fun _ => rfl) fun _ =>
    Effect.nothing.memWrite (by decide) fun _ => by rw [clientHeader_length]; decide

theorem runs_cphUnpack (s : State) : Runs .cphUnpack s :=
  runs_of_command (fun _ => rfl) rfl (fun _ => rfl) (fun _ => rfl) fun _ =>
    Effect.nothing.setResults (n := 5) rfl (by decide) (clientFields_below _)

theorem runs_cpPack (s : State) : Runs .cpPack s :=
  runs_of_command (fun _ => rfl) rfl (fun _ => rfl) (fun _ => rfl) fun h => by
    have hn : s.ibuf.length ≤ 245 := length_le_of_clientLengthCheck (h _ List.mem_cons_self)
    refine (Effect.nothing.memWrite (by decide) fun _ => ?_).setR (by decide)
      (toNat_wordOfNat_lt ?_)
    · rw [List.length_append, clientHeader_length, Config.bufCap]; omega
    · rw [clientLength, State.ilen, Config.cpHdrLen]; omega

theorem runs_cpUnpack (s : State) : Runs .cpUnpack s :=
  runs_of_command (fun _ => rfl) rfl (fun _ => rfl) (fun _ => rfl) fun _ =>
    (Effect.nothing.setResults (n := 5) rfl (by decide) (clientFields_below _)).memWrite (by decide)
      (memRead_fits _ _)

/-! #### Space packet -/

@[simp] theorem spaceHeader_length (s : State) (b : Byte) : (spaceHeader s b).length = 6 := rfl

@[simp] theorem spaceFooter_length (hardwareId crc : BitVec 16) :
    (spaceFooter hardwareId crc).length = 4 := rfl

/-- The length check of SP.PACK bounds the payload. -/
theorem length_le_of_spaceLengthCheck {n : Nat}
    (h : (spaceLengthCheck (spaceLength n)).holds = true) : n ≤ Config.spPayloadMax := by
  have hle := ((rangeCheck_holds_iff _ _ _ _).1 h).2
  simp only [spaceLength, Config.spHdrLen, Config.spFtrLen, Config.spLenMax, Config.spPayloadMax]
    at hle ⊢
  omega

theorem runs_sphPack (s : State) : Runs .sphPack s :=
  runs_of_command (fun _ => rfl) rfl (fun _ => rfl) (fun _ => rfl) fun _ =>
    Effect.nothing.memWrite (by decide) fun _ => by rw [spaceHeader_length]; decide

theorem runs_sphUnpack (s : State) : Runs .sphUnpack s :=
  runs_of_command (fun _ => rfl) rfl (fun _ => rfl) (fun _ => rfl) fun _ =>
    Effect.nothing.setResults (n := 5) rfl (by decide) (spaceFields_below _)

theorem runs_spfPack (s : State) : Runs .spfPack s :=
  runs_of_command (fun _ => rfl) rfl (fun _ => rfl) (fun _ => rfl) fun _ =>
    Effect.nothing.memWrite (by decide) fun _ => by rw [spaceFooter_length]; decide

theorem runs_spfUnpack (s : State) : Runs .spfUnpack s :=
  runs_of_command (fun _ => rfl) rfl (fun _ => rfl) (fun _ => rfl) fun _ =>
    Effect.nothing.setResults (n := 2) rfl (by decide) (by
      simp only [List.forall_mem_cons, le16Word_below, true_and]
      exact List.forall_mem_nil _)

theorem runs_spPack (s : State) : Runs .spPack s :=
  runs_of_command (fun _ => rfl) rfl (fun _ => rfl) (fun _ => by dsimp only; rfl) fun h => by
    have hn : s.ibuf.length ≤ 241 := length_le_of_spaceLengthCheck (h _ List.mem_cons_self)
    refine (((Effect.nothing.memWrite (by decide) fun _ => ?_).setR (by decide)
      (toNat_wordOfNat_lt ?_)).setR (by decide) (toNat_setWidth_lt _ (by decide))).setCrcAcc _
      (by decide)
    · simp only [List.length_append, spaceHeader_length, spaceFooter_length, Config.bufCap]; omega
    · rw [spaceLength, State.ilen, Config.spHdrLen, Config.spFtrLen]; omega

theorem runs_spUnpack (s : State) : Runs .spUnpack s :=
  runs_of_command (fun _ => rfl) rfl (fun _ => rfl) (fun _ => rfl) fun _ =>
    ((Effect.nothing.setResults (n := 7) rfl (by decide) (by
      simp only [List.forall_mem_append, List.forall_mem_cons, le16Word_below, storedCrc, true_and]
      exact ⟨spaceFields_below _, List.forall_mem_nil _⟩)).memWrite (by decide)
        (memRead_fits _ _)).setCrcAcc _ (by decide)

/-! ### All commands -/

/-- Every command but CLRERR and SRESET raises one of its errors or has its effect, whatever `STATUS`
held. -/
theorem exec_runs (i : Instr) (hclrerr : i ≠ .clrerr) (hsreset : i ≠ .sreset) (s : State) :
    Runs i s := by
  cases i with
  | nop => exact runs_nop s
  | xfer => exact runs_xfer s
  | clrerr => exact absurd rfl hclrerr
  | sreset => exact absurd rfl hsreset
  | bfPack => exact runs_bfPack s
  | bfUnpack => exact runs_bfUnpack s
  | putU8 => exact runs_putU8 s
  | putLe16 => exact runs_putLe16 s
  | putBe16 => exact runs_putBe16 s
  | putLe32 => exact runs_putLe32 s
  | putBe32 => exact runs_putBe32 s
  | getU8 => exact runs_getU8 s
  | getLe16 => exact runs_getLe16 s
  | getBe16 => exact runs_getBe16 s
  | getLe32 => exact runs_getLe32 s
  | getBe32 => exact runs_getBe32 s
  | crcInit => exact runs_crcInit s
  | crcBit => exact runs_crcBit s
  | crcByte => exact runs_crcByte s
  | crcRead => exact runs_crcRead s
  | crcSpan => exact runs_crcSpan s
  | pn9Seed => exact runs_pn9Seed s
  | pn9Bit => exact runs_pn9Bit s
  | pn9Byte => exact runs_pn9Byte s
  | whiten => exact runs_whiten s
  | fecEncode => exact runs_fecEncode s
  | fecNew => exact runs_fecNew s
  | fecPrime => exact runs_fecPrime s
  | fecSubmit => exact runs_fecSubmit s
  | athPack => exact runs_athPack s
  | athUnpack => exact runs_athUnpack s
  | cphPack => exact runs_cphPack s
  | cphUnpack => exact runs_cphUnpack s
  | cpPack => exact runs_cpPack s
  | cpUnpack => exact runs_cpUnpack s
  | sphPack => exact runs_sphPack s
  | sphUnpack => exact runs_sphUnpack s
  | spfPack => exact runs_spfPack s
  | spfUnpack => exact runs_spfUnpack s
  | spPack => exact runs_spPack s
  | spUnpack => exact runs_spUnpack s

theorem execClrerr_eq (s : State) : exec .clrerr s = .next { s with status := 0 } := rfl

theorem execSreset_eq (s : State) : exec .sreset s = .next s.resetBlock := rfl

theorem clrerr_or_sreset_or_runs (i : Instr) (s : State) :
    i = .clrerr ∨ i = .sreset ∨ (i ≠ .clrerr ∧ i ≠ .sreset ∧ Runs i s) := by
  by_cases hclrerr : i = .clrerr
  · exact .inl hclrerr
  by_cases hsreset : i = .sreset
  · exact .inr (.inl hsreset)
  exact .inr (.inr ⟨hclrerr, hsreset, exec_runs i hclrerr hsreset s⟩)

/-- All a command can do: CLRERR clears `STATUS`, SRESET resets the block, any other raises one of its
errors or has its effect and succeeds. -/
theorem exec_cases {i : Instr} {s t : State} (h : exec i s = .next t) :
    (i = .clrerr ∧ t = { s with status := 0 }) ∨ (i = .sreset ∧ t = s.resetBlock) ∨
      (∃ e ∈ legalErrors i, t = s.raise e) ∨
      ∃ u, Effect i s u ∧ u.status = s.status ∧ t = u.succeed := by
  rcases clrerr_or_sreset_or_runs i s with rfl | rfl | ⟨-, -, ⟨e, he, heq⟩ | ⟨u, hu, heq⟩⟩
  · cases h; exact .inl ⟨rfl, rfl⟩
  · cases h; exact .inr (.inl ⟨rfl, rfl⟩)
  · have ht := Host.Outcome.next.inj (h.symm.trans (heq s.status))
    exact .inr (.inr (.inl ⟨e, he, ht⟩))
  · have ht := Host.Outcome.next.inj (h.symm.trans (heq s.status))
    exact .inr (.inr (.inr ⟨_, hu.withStatus s.status, rfl, ht⟩))

/-- No command stops the block (60_exceptions.md R281). -/
theorem exec_total (i : Instr) (s : State) : ∃ t, exec i s = .next t := by
  rcases clrerr_or_sreset_or_runs i s with rfl | rfl | ⟨-, -, ⟨e, -, heq⟩ | ⟨u, -, heq⟩⟩
  · exact ⟨_, execClrerr_eq s⟩
  · exact ⟨_, execSreset_eq s⟩
  · exact ⟨_, heq s.status⟩
  · exact ⟨_, heq s.status⟩

theorem exec_sameHost {i : Instr} {s t : State} (h : exec i s = .next t) : SameHost s t := by
  rcases exec_cases h with ⟨-, rfl⟩ | ⟨-, rfl⟩ | ⟨e, -, rfl⟩ | ⟨u, hu, -, rfl⟩
  · exact ⟨rfl, rfl, rfl⟩
  · exact ⟨rfl, rfl, rfl⟩
  · exact ⟨rfl, rfl, rfl⟩
  · exact hu.host

/-! ### Steps -/

theorem step_of_idle {s : State} (h : s.pending = []) : step s = .next s := by
  simp [step, State.nextAction, h]

theorem step_of_pending {s : State} {act : HostAction} {rest : List HostAction}
    (h : s.pending = act :: rest) (hwf : act.wellFormed = true) :
    step s = advanceAfter (actionEffect act s) := by
  simp [step, State.nextAction, performAction, h, hwf]

theorem step_of_not_wellFormed {s : State} {act : HostAction} {rest : List HostAction}
    (h : s.pending = act :: rest) (hwf : act.wellFormed = false) :
    step s = .refused (.notAHostAction act) := by
  simp [step, State.nextAction, performAction, advanceAfter, h, hwf]

/-- An action whose effect keeps the host's program is taken off it, and `cp` advances. -/
theorem step_next {s u : State} {act : HostAction} {rest : List HostAction}
    (h : s.pending = act :: rest) (hwf : act.wellFormed = true) (heff : actionEffect act s = .next u)
    (hpending : u.pending = s.pending) :
    step s = .next { u with pending := rest, cp := u.cp + 1 } := by
  rw [step_of_pending h hwf, heff, advanceAfter, State.advance, hpending, h, List.tail_cons]

/-- All a step with a next state can do. -/
theorem step_cases {s t : State} (h : step s = .next t) :
    t = s ∨ ∃ act u, act.wellFormed = true ∧ actionEffect act s = .next u ∧ t = u.advance := by
  cases hp : s.pending with
  | nil => exact .inl (Host.Outcome.next.inj (h.symm.trans (step_of_idle hp)))
  | cons act rest =>
    cases hwf : act.wellFormed with
    | false => simp [step_of_not_wellFormed hp hwf] at h
    | true =>
      rw [step_of_pending hp hwf] at h
      cases heff : actionEffect act s with
      | next u =>
        rw [heff] at h
        exact .inr ⟨act, u, hwf, heff, (Host.Outcome.next.inj h).symm⟩
      | fault f => nomatch f
      | refused r => simp [heff, advanceAfter] at h

/-- A property that the effect of every admitted action keeps, and that does not look at the host's program,
is kept by every step. -/
theorem step_preserves {P : State → Prop} (hadvance : ∀ s, P s → P s.advance)
    (heffect : ∀ act s t, act.wellFormed = true → P s → actionEffect act s = .next t → P t) {s t : State}
    (hs : P s) (h : step s = .next t) : P t := by
  rcases step_cases h with rfl | ⟨act, u, hwf, heff, rfl⟩
  · exact hs
  · exact hadvance u (heffect act s u hwf hs heff)

/-- `cmd` runs the decoded command or raises Illegal(OPCODE). -/
theorem runCommand_cases {op : Byte} {s t : State} (h : runCommand op s = .next t) :
    (∃ i, exec i s = .next t) ∨ t = s.raise ⟨.illegal, .opcode⟩ := by
  rw [runCommand] at h
  split at h
  next i _ => exact .inl ⟨i, h⟩
  next => exact .inr (Host.Outcome.next.inj h).symm

/-- Every action that R39 admits has an effect, and leaves the host's program and `cp` alone. -/
theorem actionEffect_total (act : HostAction) (s : State) :
    ∃ t, actionEffect act s = .next t ∧ t.pending = s.pending ∧ t.cp = s.cp := by
  cases act with
  | cmd op =>
    cases hdec : decode op with
    | instr i =>
      obtain ⟨t, ht⟩ := exec_total i s
      obtain ⟨hpending, hcp, -⟩ := exec_sameHost ht
      exact ⟨t, by rw [actionEffect, runCommand, hdec, ← ht], hpending, hcp⟩
    | illegalOpcode _ => exact ⟨s.illegalOpcode, by rw [actionEffect, runCommand, hdec], rfl, rfl⟩
  | seta | load | geta | getr | gets | geti | geto | reset => exact ⟨_, rfl, rfl, rfl⟩

/-! ### Which actions R39 admits -/

theorem regIndex_val {i : Nat} (hi : i < 8) : (regIndex i : Nat) = i := Nat.mod_eq_of_lt hi

theorem getElem_regIndex (v : Vector Word 8) {i : Nat} (hi : i < 8) : v[regIndex i] = v[i] := by
  simp [regIndex_val hi]

theorem registerIndexOk_iff (i : Nat) : registerIndexOk i = true ↔ i < 8 := decide_eq_true_iff

theorem argumentFits_iff (v : Int) : argumentFits v = true ↔ -(2 ^ 63) ≤ v ∧ v < 2 ^ 63 := by
  rw [argumentFits, Bool.and_eq_true, decide_eq_true_iff, decide_eq_true_iff]; rfl

theorem wellFormed_seta_iff (i : Nat) (v : Int) :
    (HostAction.seta i v).wellFormed = true ↔ i < 8 ∧ -(2 ^ 63) ≤ v ∧ v < 2 ^ 63 := by
  rw [HostAction.wellFormed, Bool.and_eq_true, registerIndexOk_iff, argumentFits_iff]

theorem wellFormed_load_iff (B : Span) :
    (HostAction.load B).wellFormed = true ↔ B.length ≤ 1024 := decide_eq_true_iff

/-! ### Good states -/

theorem resultsBelow_of_zero {s : State} (h : s.r = Vector.replicate 8 0) : ResultsBelow s := by
  intro k
  simp [h]

theorem goodState_raise {s : State} {e : CmdError} (h : GoodState s) (he : SomeCommandRaises e) :
    GoodState (s.raise e) := by
  obtain ⟨hwf, hstatus, hpn9, hr⟩ := h
  exact ⟨hwf, statusLegal_statusRaise hstatus he, hpn9, hr⟩

theorem goodState_resetBlock (s : State) : GoodState s.resetBlock :=
  ⟨Memory.wf_resetBlock s, statusLegal_zero, by simp, resultsBelow_of_zero rfl⟩

theorem goodState_exec {i : Instr} {s t : State} (hs : GoodState s) (h : exec i s = .next t) :
    GoodState t := by
  obtain ⟨hwf, hstatus, hpn9, hr⟩ := hs
  rcases exec_cases h with ⟨-, rfl⟩ | ⟨-, rfl⟩ | ⟨e, he, rfl⟩ | ⟨u, hu, hustatus, rfl⟩
  · exact ⟨hwf, statusLegal_zero, hpn9, hr⟩
  · exact goodState_resetBlock s
  · exact goodState_raise ⟨hwf, hstatus, hpn9, hr⟩ (.inr ⟨i, he⟩)
  · refine ⟨hu.wf hwf, ?_, hu.pn9_ne_zero hpn9, hu.results hr⟩
    rw [State.succeed_status, hustatus]
    exact statusLegal_statusOk hstatus

theorem goodState_actionEffect (act : HostAction) (s t : State) (hact : act.wellFormed = true)
    (hs : GoodState s) (h : actionEffect act s = .next t) : GoodState t := by
  cases act with
  | cmd op =>
    rcases runCommand_cases h with ⟨i, hi⟩ | rfl
    · exact goodState_exec hs hi
    · exact goodState_raise hs (.inl rfl)
  | load bytes =>
    obtain ⟨hwf, hrest⟩ := hs
    cases h
    exact ⟨Memory.wf_loadSpan hwf (of_decide_eq_true hact), hrest⟩
  | reset => cases h; exact goodState_resetBlock s
  | seta | geta | getr | gets | geti | geto => cases h; exact hs

/-! ### The decoder's history -/

theorem historyAfter_append (code : FecCode) (h : FecHist) (cs : List Span) (c : Span) :
    historyAfter code h (cs ++ [c]) =
      (historyAfter code h cs).bind fun h' => (code.step h' c).map (·.1) := by
  induction cs generalizing h with
  | nil => cases hc : code.step h c <;> simp [historyAfter, hc]
  | cons d cs ih => cases hd : code.step h d <;> simp [historyAfter, hd, ih]

theorem decoderHistoryFits_of_unprimed {s : State} (h : s.fecPhase = .unprimed) :
    DecoderHistoryFits s := by
  simp [DecoderHistoryFits, h]

theorem decoderHistoryFits_congr {s t : State} (hphase : t.fecPhase = s.fecPhase)
    (hhist : t.fecHist = s.fecHist) (h : DecoderHistoryFits s) : DecoderHistoryFits t := by
  rwa [DecoderHistoryFits, hphase, hhist]

/-- A primed decoder holds what some chunks led to from `hist0`, none where it has accepted none. -/
theorem DecoderHistoryFits.reached {s : State} (h : DecoderHistoryFits s)
    (hphase : s.fecPhase ≠ .unprimed) : ∃ chunks : List Span,
      (∀ c ∈ chunks, c.length = Config.fecGroup) ∧
      historyAfter Config.fecCode Config.fecCode.hist0 chunks = some s.fecHist := by
  cases hp : s.fecPhase with
  | unprimed => exact absurd hp hphase
  | primedEmpty => exact ⟨[], List.forall_mem_nil _, congrArg some (h.1 hp).symm⟩
  | accepting =>
    obtain ⟨chunks, -, hlen, hreach⟩ := h.2 hp
    exact ⟨chunks, hlen, hreach⟩

/-- The history after a chunk is accepted is what the chunks before it and that chunk lead to. -/
theorem decoderHistoryFits_fecSubmit {s t : State} (hs : DecoderHistoryFits s)
    (h : exec .fecSubmit s = .next t) : DecoderHistoryFits t := by
  obtain rfl : fecSubmitWith Config.fecCode s = t := Host.Outcome.next.inj h
  rcases fecSubmitWith_cases Config.fecCode s with
    ⟨e, -, heq⟩ | ⟨hist, out, hphase, hlen, hstep, heq⟩
  · rw [show fecSubmitWith Config.fecCode s = s.raise e from heq s.status]
    exact hs
  · obtain ⟨chunks, hchunks, hreach⟩ := hs.reached hphase
    rw [show fecSubmitWith Config.fecCode s = _ from heq s.status]
    refine ⟨nofun, fun _ => ⟨chunks ++ [s.ibuf], by simp, ?_, ?_⟩⟩
    · exact List.forall_mem_append.2 ⟨hchunks, List.forall_mem_singleton.2 hlen⟩
    · simp [historyAfter_append, hreach, hstep]

theorem decoderHistoryFits_fecPrime {s t : State} (hs : DecoderHistoryFits s)
    (h : exec .fecPrime s = .next t) : DecoderHistoryFits t := by
  obtain rfl : fecPrimeWith Config.fecCode s = t := Host.Outcome.next.inj h
  rw [fecPrimeWith]
  rcases State.command_cases s _ _ with ⟨e, -, heq⟩ | ⟨-, heq⟩
  · rw [heq]; exact hs
  · rw [heq]; exact ⟨fun _ => rfl, nofun⟩

theorem decoderHistoryFits_exec {i : Instr} {s t : State} (hs : DecoderHistoryFits s)
    (h : exec i s = .next t) : DecoderHistoryFits t := by
  by_cases hi : i ∈ phaseWriters
  · simp only [phaseWriters, List.mem_cons, List.not_mem_nil, or_false] at hi
    rcases hi with rfl | rfl | rfl | rfl
    · cases h; exact decoderHistoryFits_of_unprimed rfl
    · cases h; exact decoderHistoryFits_of_unprimed rfl
    · exact decoderHistoryFits_fecPrime hs h
    · exact decoderHistoryFits_fecSubmit hs h
  · have hsub : histWriters ⊆ phaseWriters := by decide
    have hi' : i ∉ histWriters := fun hmem => hi (hsub hmem)
    rcases exec_cases h with ⟨-, rfl⟩ | ⟨-, rfl⟩ | ⟨e, -, rfl⟩ | ⟨u, hu, -, rfl⟩
    · exact hs
    · exact decoderHistoryFits_of_unprimed rfl
    · exact hs
    · exact decoderHistoryFits_congr (hu.fecPhase hi) (hu.fecHist hi') hs

theorem decoderHistoryFits_actionEffect (act : HostAction) (s t : State)
    (_ : act.wellFormed = true) (hs : DecoderHistoryFits s) (h : actionEffect act s = .next t) :
    DecoderHistoryFits t := by
  cases act with
  | cmd op =>
    rcases runCommand_cases h with ⟨i, hi⟩ | rfl
    · exact decoderHistoryFits_exec hs hi
    · exact hs
  | reset => cases h; exact decoderHistoryFits_of_unprimed rfl
  | seta | load | geta | getr | gets | geti | geto => cases h; exact hs

/-! ### Commands that overwrite `CRC_ACC` (10_state.md R32) -/

/-- A command whose effect overwrites `CRC_ACC` and whose checks do not look at it: its next state depends on
the old `CRC_ACC` only where it fails, which keeps it. -/
theorem command_of_crcAcc_overwritten {s : State} {checks : List Check} {effect : State → State}
    (acc : BitVec 16) (heffect : effect { s with crcAcc := acc } = effect s) :
    let t := s.command checks effect
    let u := { s with crcAcc := acc }.command checks effect
    { u with crcAcc := t.crcAcc } = t ∧ (statusKind t.status = 0 → u = t) := by
  cases h : firstError checks with
  | some e =>
    rw [State.command_of_error _ _ h, State.command_of_error _ _ h]
    exact ⟨rfl, fun hk => absurd (by simpa using hk) (kindCode_ne_zero e.kind)⟩
  | none =>
    have hall := (firstError_eq_none_iff _).1 h
    rw [State.command_of_holds _ _ hall, State.command_of_holds _ _ hall, heffect]
    exact ⟨rfl, fun _ => rfl⟩

/-! ### Reset -/

theorem blockAtReset_reset : BlockAtReset State.reset := by
  simp [BlockAtReset, State.ilen, State.olen]

theorem blockAtReset_resetBlock (s : State) : BlockAtReset s.resetBlock := blockAtReset_reset

/-! ### The statements -/

/-- Settles O16: the ranges of `Effect` and the two ways a command ends, for every action a step can
perform. -/
theorem stepKeepsGoodState : Obligations.StepKeepsGoodState :=
  fun _ _ hs h => step_preserves (fun _ hu => hu) goodState_actionEffect hs h

/-- Settles O59: only FEC.PRIME and FEC.SUBMIT leave a primed phase behind, and each installs the history that
the invariant names. -/
theorem stepKeepsDecoderHistory : Obligations.StepKeepsDecoderHistory :=
  fun _ _ hs h => step_preserves (fun _ hu => hu) decoderHistoryFits_actionEffect hs h

/-- Settles O5: every admitted action has an effect, and none touches the host's program. -/
theorem everyActionAdvancesByOne : Obligations.EveryActionAdvancesByOne := by
  intro s act rest h hwf
  obtain ⟨u, heff, hpending, hcp⟩ := actionEffect_total act s
  exact ⟨_, step_next h hwf heff hpending, rfl, congrArg (· + 1) hcp⟩

/-- Settles O10: `Runs` names the error, one of the command's own, or the success. -/
theorem everyCommandWritesStatus : Obligations.EveryCommandWritesStatus := by
  intro i s
  rcases clrerr_or_sreset_or_runs i s with
    rfl | rfl | ⟨hclrerr, hsreset, ⟨e, he, heq⟩ | ⟨u, -, heq⟩⟩
  · exact ⟨_, execClrerr_eq s, fun _ => rfl, fun hne => absurd rfl hne⟩
  · exact ⟨_, execSreset_eq s, fun _ => rfl, fun _ hne => absurd rfl hne⟩
  · exact ⟨_, heq s.status, by simp [hclrerr, hsreset],
      fun _ _ => .inr ⟨e, he, statusIsError_statusRaise _ e⟩⟩
  · exact ⟨_, heq s.status, by simp [hclrerr, hsreset],
      fun _ _ => .inl (statusIsSuccess_statusOk s.status)⟩

/-- Settles O12: `Runs` says of every value of `STATUS` that the command ends in the same way. -/
theorem noResultDependsOnStatus : Obligations.NoResultDependsOnStatus := by
  intro i s t w h
  rcases clrerr_or_sreset_or_runs i s with rfl | rfl | ⟨-, -, ⟨e, -, heq⟩ | ⟨u, -, heq⟩⟩
  · cases h; exact ⟨_, rfl, rfl, rfl, rfl⟩
  · cases h; exact ⟨_, rfl, rfl, rfl, rfl⟩
  · obtain rfl := Host.Outcome.next.inj (h.symm.trans (heq s.status))
    exact ⟨_, heq w, rfl, by simp, by simp⟩
  · obtain rfl := Host.Outcome.next.inj (h.symm.trans (heq s.status))
    exact ⟨_, heq w, rfl, by simp, by simp⟩

/-- Settles O13: the frame of `Effect`; an error writes `STATUS` only. -/
theorem commandsWriteOnlyTheirState : Obligations.CommandsWriteOnlyTheirState := by
  intro i s t h
  rcases exec_cases h with ⟨-, rfl⟩ | ⟨rfl, rfl⟩ | ⟨e, -, rfl⟩ | ⟨u, hu, -, rfl⟩
  · simp [SameHost]
  · have hall : ∀ k, k ∈ resultsWritten .sreset := by decide
    simp [SameHost, hall, crcWriters, pn9Writers, phaseWriters, histWriters, spanWriters]
  · simp [SameHost]
  · exact ⟨fun _ k => congrArg (·[k]) hu.a, hu.r, hu.crcAcc, hu.pn9, hu.fecPhase, hu.fecHist,
      fun hi _ a => congrArg (readByte · a) (hu.ibuf hi),
      fun hi a => congrArg (readByte · a) (hu.obuf hi), fun _ => hu.freeCount, hu.host⟩

/-- Settles O14: each of the three overwrites `CRC_ACC`, and WHITEN never reads `PN9_S`. -/
theorem spanCommandsStartAfresh : Obligations.SpanCommandsStartAfresh := by
  refine ⟨fun i hi s t acc h => ?_, fun s S => rfl⟩
  simp only [List.mem_cons, List.not_mem_nil, or_false] at hi
  rcases hi with rfl | rfl | rfl <;> cases h
  · exact ⟨_, rfl, command_of_crcAcc_overwritten acc rfl⟩
  · exact ⟨_, rfl, command_of_crcAcc_overwritten acc rfl⟩
  · exact ⟨_, rfl, command_of_crcAcc_overwritten acc rfl⟩

/-- Settles O6 (`step_of_idle`). -/
theorem endedRunStaysIdle : Obligations.EndedRunStaysIdle :=
  fun _ h => step_of_idle h

/-- Settles O7: each row is `step_next` for an action that R39 admits. -/
theorem hostActionsHaveTheirEffect : Obligations.HostActionsHaveTheirEffect := by
  intro s rest
  refine ⟨fun i v hi hlo hhi h => ?_, fun B hB h => ?_, fun i hi h => ?_, fun i hi h => ?_, fun h => ?_,
    fun h => ?_, fun h => ?_⟩
  · refine ⟨BitVec.ofInt 64 v, BitVec.toInt_ofInt_eq_self (by decide) hlo hhi, ?_⟩
    rw [step_next h ((wellFormed_seta_iff i v).2 ⟨hi, hlo, hhi⟩) rfl rfl]
    simp [State.setA, regIndex_val hi]
  · exact step_next h ((wellFormed_load_iff B).2 hB) rfl rfl
  · rw [step_next h ((registerIndexOk_iff i).2 hi) rfl rfl, getElem_regIndex _ hi]
    rfl
  · rw [step_next h ((registerIndexOk_iff i).2 hi) rfl rfl, getElem_regIndex _ hi]
    rfl
  · exact ⟨statusRead s.status, step_next h rfl rfl rfl, by simp⟩
  · exact step_next h rfl rfl rfl
  · exact step_next h rfl rfl rfl

/-- Settles O8: each of the three bounds makes the action ill-formed. -/
theorem inadmissibleActionsAreRefused : Obligations.InadmissibleActionsAreRefused := by
  intro s act rest h hact
  refine step_of_not_wellFormed h (Bool.eq_false_iff.2 fun hwf => ?_)
  rcases hact with ⟨i, v, rfl, hbad⟩ | ⟨B, rfl, hB⟩ | ⟨i, rfl | rfl, hi⟩
  · obtain ⟨hi, hlo, hhi⟩ := (wellFormed_seta_iff i v).1 hwf
    omega
  · exact absurd ((wellFormed_load_iff B).1 hwf) (Nat.not_le.2 hB)
  · exact absurd ((registerIndexOk_iff i).1 hwf) (Nat.not_lt.2 hi)
  · exact absurd ((registerIndexOk_iff i).1 hwf) (Nat.not_lt.2 hi)

/-- Settles O9: the three reset events. -/
theorem resetGivesTheResetValues : Obligations.ResetGivesTheResetValues :=
  ⟨blockAtReset_reset,
    fun s => ⟨_, execSreset_eq s, blockAtReset_resetBlock s, rfl, rfl, rfl⟩,
    fun s _ h => ⟨_, step_next h rfl rfl rfl, blockAtReset_resetBlock s, rfl, rfl, rfl⟩⟩

/-- Settles O17: reset values are within their ranges. -/
theorem resetIsGoodState : Obligations.ResetIsGoodState :=
  ⟨Memory.wf_reset, statusLegal_zero, by decide, resultsBelow_of_zero rfl⟩

/-- Settles O60: the reset decoder is unprimed. -/
theorem resetHasDecoderHistory : Obligations.ResetHasDecoderHistory :=
  decoderHistoryFits_of_unprimed rfl

end Sys2Proof.Machine
end

section
/-! SUPPORT. A command issued again in its own next state (20_memory.md R58). A command that advances no
engine register it reads makes the same checks again and writes the values that are already there, so its
next state is a fixed point of it. -/

namespace Sys2Proof.Machine

/-! ### Writing the same again -/

theorem statusOk_statusOk (w : BitVec 16) : statusOk (statusOk w) = statusOk w := by
  rw [statusOk, statusReserved_statusOk, statusSticky_statusOk, ← statusOk]

theorem statusRaise_statusRaise (w : BitVec 16) (e : CmdError) :
    statusRaise (statusRaise w e) e = statusRaise w e := by
  rw [statusRaise, statusReserved_statusRaise, ← statusRaise]

theorem State.succeed_succeed (s : State) : s.succeed.succeed = s.succeed :=
  congrArg (fun w => { s with status := w }) (statusOk_statusOk s.status)

theorem State.raise_raise (s : State) (e : CmdError) : (s.raise e).raise e = s.raise e :=
  congrArg (fun w => { s with status := w }) (statusRaise_statusRaise s.status e)

theorem writeFrom_writeFrom (first : Nat) (vs : List Word) (r : Vector Word 8) :
    writeFrom first vs (writeFrom first vs r) = writeFrom first vs r := by
  ext k hk
  simp only [writeFrom_getElem]
  split <;> rfl

/-- `Vector.set_set` for two registers at a time, as SP.PACK writes `R[0]` and `R[6]`. -/
theorem set_set_again {i j : Nat} (hi : i < 8) (hj : j < 8) (hij : i ≠ j) (v w : Word)
    (r : Vector Word 8) : (((r.set i v).set j w).set i v).set j w = (r.set i v).set j w := by
  rw [Vector.set_comm v w hij, Vector.set_set, Vector.set_comm v w hij, Vector.set_set]

/-- Two states that differ at most in the register file are equal where the register files are. -/
theorem State.eq_of_r_eq {s t : State} (hrest : { s with r := t.r } = t) (hr : s.r = t.r) : s = t := by
  rw [← hrest, ← hr]

/-! ### Commands that repeat -/

/-- A command that changes nothing when it is issued again in its own next state. -/
def Repeats (i : Instr) : Prop := ∀ s t, exec i s = .next t → exec i t = .next t

/-- A command in the form `State.command` repeats where its checks read only the operands (the argument
registers and the input span), its effect keeps these, and the effect after itself changes nothing: a success
passes the same checks again, and an error is raised again. -/
theorem repeats_of_command {i : Instr} {checks : State → List Check} {effect : State → State → State}
    (exec_eq : ∀ s, exec i s = .next (s.command (checks s) (effect s)))
    (checks_eq : ∀ s t : State, checks { t with a := s.a, ibuf := s.ibuf } = checks s)
    (operands_kept : ∀ s, (effect s s).a = s.a ∧ (effect s s).ibuf = s.ibuf)
    (effect_again : ∀ s, effect (effect s s).succeed (effect s s).succeed = (effect s s).succeed) :
    Repeats i := by
  intro s t h
  obtain rfl := Host.Outcome.next.inj ((exec_eq s).symm.trans h)
  rw [exec_eq]
  rcases s.command_cases (checks s) (effect s) with ⟨e, herror, heq⟩ | ⟨hall, heq⟩
  · have hchecks : checks (s.raise e) = checks s := checks_eq s (s.raise e)
    rw [heq, State.command_of_error _ _ (hchecks ▸ herror), State.raise_raise]
  · obtain ⟨ha, hibuf⟩ := operands_kept s
    have hchecks : checks (effect s s).succeed = checks s := by
      rw [← checks_eq s (effect s s).succeed, ← ha, ← hibuf]
      rfl
    rw [heq, State.command_of_holds _ _ (hchecks ▸ hall), effect_again, State.succeed_succeed]

/-- Every command but the streaming ones and SRESET, which draws a free `FEC_HIST` each time, repeats. The
cases are grouped by what the command writes to `R`: nothing, one register, two, or a consecutive list. -/
theorem repeats_of_not_streaming {i : Instr} (hstream : i ∉ streamingCommands)
    (hsreset : i ≠ .sreset) : Repeats i := by
  cases i with
  | crcBit | crcByte | pn9Bit | pn9Byte | fecPrime | fecSubmit => exact absurd (by decide) hstream
  | sreset => exact absurd rfl hsreset
  | clrerr =>
    rintro s _ ⟨⟩
    rfl
  | xfer =>
    -- The one command that writes the input span: it copies `OBUF`, which it keeps.
    rintro s _ ⟨⟩
    exact congrArg Host.Outcome.next (State.succeed_succeed (s.loadSpan s.obuf))
  | nop | crcInit | pn9Seed | fecNew | whiten | putU8 | putLe16 | putBe16 | putLe32 | putBe32
  | athPack | cphPack | sphPack | spfPack =>
    exact repeats_of_command (fun _ => rfl) (fun _ _ => rfl) (fun _ => ⟨rfl, rfl⟩) fun _ => rfl
  | fecEncode =>
    exact repeats_of_command (effect := fun _ t => t.memWrite (Config.fecCode.encode t.ibuf).toList)
      (fun _ => rfl) (fun _ _ => rfl) (fun _ => ⟨rfl, rfl⟩) fun _ => rfl
  | bfPack | getU8 | getLe16 | getBe16 | getLe32 | getBe32 | crcRead | crcSpan | cpPack =>
    exact repeats_of_command (fun _ => rfl) (fun _ _ => rfl) (fun _ => ⟨rfl, rfl⟩) fun _ =>
      State.eq_of_r_eq rfl (Vector.set_set (hi := by decide) ..)
  | spPack =>
    exact repeats_of_command (fun _ => rfl) (fun _ _ => rfl) (fun _ => ⟨rfl, rfl⟩) fun _ =>
      State.eq_of_r_eq rfl (set_set_again (by decide) (by decide) (by decide) ..)
  | bfUnpack | athUnpack | cphUnpack | cpUnpack | sphUnpack | spfUnpack | spUnpack =>
    exact repeats_of_command (fun _ => rfl) (fun _ _ => rfl) (fun _ => by simp) fun _ => by
      simp [State.setResults, State.memWrite, State.succeed, State.argBits, State.ilen,
        writeFrom_writeFrom]

/-! ### The statement -/

/-- Settles O15: SRESET gives the reset values again, and any other command repeats. -/
theorem commandsWithoutEngineStateRepeat : Obligations.CommandsWithoutEngineStateRepeat := by
  intro i s t hstream h
  by_cases hsreset : i = .sreset
  · subst hsreset
    cases h
    exact ⟨_, execSreset_eq _, rfl, rfl, rfl⟩
  · exact ⟨t, repeats_of_not_streaming hstream hsreset s t h, rfl, rfl, rfl⟩

end Sys2Proof.Machine
end

section
/-! SUPPORT. The decoder and the encoder (30_encoding.md R70 to R74). An opcode is its family and function
fields put together, and each family's table selects a command only at that command's own opcode; so the
decoder and the encoder are inverse to each other, and the values left over are those that R74 lists. -/

namespace Sys2Proof

/-! ### The fields of an opcode (30_encoding.md R71) -/

theorem famField_append_fnField (op : Byte) : famField op ++ fnField op = op := by
  have hjoin : 4 = 0 + 4 := rfl
  rw [famField, fnField, BitVec.extractLsb'_append_extractLsb'_eq_extractLsb' hjoin]
  exact BitVec.extractLsb'_eq_self

/-! ### The opcode map (30_encoding.md R72, R74) -/

/-- The values that 30_encoding.md R74 lists: those that are no command's opcode. -/
abbrev UnlistedValue (n : Nat) : Prop :=
  (0x04 ≤ n ∧ n ≤ 0x0F) ∨ (0x17 ≤ n ∧ n ≤ 0x19) ∨ n = 0x1F ∨ (0x25 ≤ n ∧ n ≤ 0x2F) ∨
    (0x34 ≤ n ∧ n ≤ 0x3F) ∨ (0x44 ≤ n ∧ n ≤ 0x4F) ∨ (0x52 ≤ n ∧ n ≤ 0x5F) ∨
    (0x64 ≤ n ∧ n ≤ 0x6F) ∨ (0x76 ≤ n ∧ n ≤ 0x7F) ∨ 0x80 ≤ n

/-- Families 8 to 15 hold the values from 0x80 on. -/
theorem unlistedValue_append {fam : BitVec 4} (h : 8 ≤ fam.toNat) (fn : BitVec 4) :
    UnlistedValue (fam ++ fn).toNat := by
  have hle : fam.toNat <<< 4 ≤ (fam ++ fn).toNat := BitVec.toNat_append fam fn ▸ Nat.left_le_or
  rw [Nat.shiftLeft_eq] at hle
  omega

/-- Each of the eight family tables selects a command only at that command's own opcode. -/
theorem opcode_of_selectCommand (fam fn : BitVec 4) :
    ∀ i ∈ selectCommand fam fn, opcode i = fam ++ fn := by
  unfold selectCommand
  split
  case h_9 => exact nofun -- families 8 to 15
  all_goals revert fn; decide

/-- Each of the eight family tables has a command at every value that R74 does not list. -/
theorem selectCommand_isSome_iff (fam fn : BitVec 4) :
    (selectCommand fam fn).isSome = true ↔ ¬ UnlistedValue (fam ++ fn).toNat := by
  unfold selectCommand
  split
  case h_9 => -- families 8 to 15
    have hfam : 8 ≤ fam.toNat := by revert fam; decide
    exact iff_of_false nofun (not_not_intro (unlistedValue_append hfam fn))
  all_goals revert fn; decide

/-! ### Decoding and encoding -/

theorem decode_of_selectCommand {op : Byte} {i : Instr}
    (h : selectCommand (famField op) (fnField op) = some i) : decode op = .instr i := by
  rw [decode, h]

theorem decode_of_selectCommand_none {op : Byte}
    (h : selectCommand (famField op) (fnField op) = none) : decode op = .illegalOpcode op := by
  rw [decode, h]

@[simp] theorem decode_opcode (i : Instr) : decode (opcode i) = .instr i := by
  cases i <;> rfl

theorem opcode_of_decode {op : Byte} {i : Instr} (h : decode op = .instr i) : opcode i = op := by
  cases hsel : selectCommand (famField op) (fnField op) with
  | none => rw [decode_of_selectCommand_none hsel] at h; cases h
  | some j =>
    obtain rfl := DecodeResult.instr.inj ((decode_of_selectCommand hsel).symm.trans h)
    rw [opcode_of_selectCommand _ _ _ hsel, famField_append_fnField]

/-- The decoder rejects every value that R74 lists; with `decode_of_not_unlistedValue`, no other. -/
theorem decode_of_unlistedValue {op : Byte} (h : UnlistedValue op.toNat) :
    decode op = .illegalOpcode op := by
  refine decode_of_selectCommand_none (Option.not_isSome_iff_eq_none.1 fun hsome => ?_)
  rw [selectCommand_isSome_iff, famField_append_fnField] at hsome
  exact hsome h

theorem decode_of_not_unlistedValue {op : Byte} (h : ¬ UnlistedValue op.toNat) :
    ∃ i, decode op = .instr i := by
  rw [← famField_append_fnField op, ← selectCommand_isSome_iff, Option.isSome_iff_exists] at h
  exact h.imp fun _ => decode_of_selectCommand

theorem decodeTableWord_of_decode {op : Byte} {i : Instr} (h : decode op = .instr i) :
    decodeTableWord 8 op.toNat = some i := by
  simp [decodeTableWord, op.isLt, h]

end Sys2Proof

namespace Sys2Proof.Machine

/-! ### Issuing an opcode (30_encoding.md R70, R74) -/

theorem runCommand_of_instr {op : Byte} {i : Instr} (h : decode op = .instr i) (s : State) :
    runCommand op s = exec i s := by
  rw [runCommand, h]

theorem runCommand_of_illegalOpcode {op bad : Byte} (h : decode op = .illegalOpcode bad) (s : State) :
    runCommand op s = .next (s.raise ⟨.illegal, .opcode⟩) := by
  rw [runCommand, h, State.illegalOpcode]

/-! ### The statements -/

/-- Settles O1: `decode_opcode` and its converse `opcode_of_decode`. -/
theorem decodeInvertsEncode : Obligations.DecodeInvertsEncode :=
  fun i _ => ⟨congrArg ([·]) (decode_opcode i), decodeTableWord_of_decode (decode_opcode i),
    fun _ h => (opcode_of_decode h).symm⟩

/-- Settles O2: the nine values are the opcodes of the commands named. -/
theorem sampleWordsDecode : Obligations.SampleWordsDecode :=
  ⟨decode_opcode .xfer, decode_opcode .bfPack, decode_opcode .getBe16, decode_opcode .crcSpan,
    decode_opcode .whiten, decode_opcode .fecSubmit, decode_opcode .athUnpack,
    decode_opcode .cpUnpack, decode_opcode .spUnpack⟩

/-- Settles O3: the decoder rejects exactly the listed values, and a rejected one raises Illegal(OPCODE),
which writes `STATUS` only. -/
theorem unlistedOpcodesRaiseIllegal : Obligations.UnlistedOpcodesRaiseIllegal := by
  refine fun op => ⟨fun hop s => ?_, decode_of_not_unlistedValue⟩
  exact ⟨_, runCommand_of_illegalOpcode (decode_of_unlistedValue hop) s,
    statusKind_statusRaise .., statusField_statusRaise .., statusSticky_statusRaise ..,
    statusReserved_statusRaise ..⟩

/-- Settles O4: `cmd` is `runCommand`, which leaves the host's program to `step_next`. -/
theorem stepRunsTheDecodedCommand : Obligations.StepRunsTheDecodedCommand := by
  intro s op rest hpending
  refine ⟨fun i hdecode _ => ?_, fun bad hdecode => ?_⟩
  · obtain ⟨t, ht⟩ := exec_total i s
    obtain ⟨htpending, htcp, -⟩ := exec_sameHost ht
    have heffect : actionEffect (.cmd op) s = .next t := (runCommand_of_instr hdecode s).trans ht
    exact ⟨t, ht, htcp ▸ step_next hpending rfl heffect htpending⟩
  · exact step_next hpending rfl (runCommand_of_illegalOpcode hdecode s) rfl

end Sys2Proof.Machine
end

section
/-! SUPPORT. Commands that check their scalar operands against the table of 60_exceptions.md R271 and then have
their effect, and what a register word is when the operand in it is in range. -/

namespace Sys2Proof.Machine

/-! ### The checks of a command as rows of R271 -/

/-- The check that a row of the table stands for. -/
def FieldRange.check (f : FieldRange) (s : State) : Check := rangeCheck (s.arg f.reg) f.lo f.hi f.field

theorem FieldRange.check_holds_iff (f : FieldRange) (s : State) :
    (f.check s).holds = true ↔ f.holds s :=
  rangeCheck_holds_iff ..

theorem checks_hold_iff (fs : List FieldRange) (s : State) :
    (∀ c ∈ fs.map (·.check s), c.holds = true) ↔ ∀ f ∈ fs, f.holds s := by
  simp only [List.forall_mem_map, FieldRange.check_holds_iff]

/-- Rows in order: the error is that of the first row whose operand is out of range (60_exceptions.md R277). -/
theorem firstError_checks {passed rest : List FieldRange} {f : FieldRange} {s : State}
    (hpassed : ∀ g ∈ passed, g.holds s) (hf : ¬ f.holds s) :
    firstError ((passed ++ f :: rest).map (·.check s)) = some ⟨.range, f.field⟩ := by
  have hfails : (f.check s).holds = false :=
    Bool.eq_false_iff.2 fun h => hf ((f.check_holds_iff s).1 h)
  rw [List.map_append, firstError_append_of_holds _ ((checks_hold_iff passed s).2 hpassed),
    List.map_cons, firstError_cons_of_fails _ hfails]
  rfl

theorem computedLengthFits_of_ne {i : Instr} (hcp : i ≠ .cpPack) (hsp : i ≠ .spPack) (s : State) :
    ComputedLengthFits i s :=
  ⟨fun h => absurd h hcp, fun h => absurd h hsp⟩

theorem operandsInRange_iff {i : Instr} (hcp : i ≠ .cpPack) (hsp : i ≠ .spPack) (s : State) :
    OperandsInRange i s ↔ ∀ f ∈ rangeTable i, f.holds s :=
  and_iff_right (computedLengthFits_of_ne hcp hsp s)

section
variable {i : Instr} {s : State} {effect : State → State}
  (exec_eq : exec i s = .next (s.command ((rangeTable i).map (·.check s)) effect))
include exec_eq

/-- A command whose checks are its rows of the table has its effect where every row holds. -/
theorem exec_of_operandsInRange (h : OperandsInRange i s) : exec i s = .next (effect s).succeed := by
  rw [exec_eq, State.command_of_holds _ _ ((checks_hold_iff _ s).2 h.2)]

/-- A command whose checks are its rows of the table raises the first row's error that fails. -/
theorem raisesFirstRangeError_of_checks (hcp : i ≠ .cpPack) (hsp : i ≠ .spPack) :
    RaisesFirstRangeError i s := by
  refine ⟨fun hfits => absurd (computedLengthFits_of_ne hcp hsp s) hfits,
    fun passed f rest _ htable hpassed hf => ?_⟩
  rw [exec_eq, htable, State.command_of_error _ _ (firstError_checks hpassed hf)]
  rfl

end

@[simp] theorem State.argsFromResults_a (s : State) : s.argsFromResults.a = s.r := rfl

/-! ### Operands in range as register words (30_encoding.md R73) -/

theorem toNat_wordOfNat {n : Nat} (h : n < 2 ^ 64) : (wordOfNat n).toNat = n := by
  rw [wordOfNat, BitVec.toNat_ofNat, Nat.mod_eq_of_lt h]

theorem wordOfNat_toNat (v : Word) : wordOfNat v.toNat = v := by
  rw [wordOfNat, BitVec.ofNat_toNat, BitVec.setWidth_eq]

section
variable {s : State} {i : Fin 8}

theorem State.arg_eq_toNat (h : 0 ≤ s.arg i) : s.arg i = (s.a[i]).toNat :=
  BitVec.toInt_eq_toNat_of_msb (BitVec.msb_eq_toInt.trans (decide_eq_false (not_lt.2 h)))

/-- An operand is in the range of a `w`-bit field exactly when the register word is. -/
theorem State.arg_inRange_iff (w : Nat) (hw : w < 64) :
    (0 ≤ s.arg i ∧ s.arg i ≤ 2 ^ w - 1) ↔ (s.a[i]).toNat < 2 ^ w := by
  rw [Int.le_sub_one_iff]
  constructor
  · rintro ⟨hlo, hhi⟩
    rw [State.arg_eq_toNat hlo] at hhi
    exact_mod_cast hhi
  · intro h
    have hpow : 2 ^ w ≤ 2 ^ 63 := Nat.pow_le_pow_right Nat.two_pos (Nat.le_of_lt_succ hw)
    have harg : s.arg i = (s.a[i]).toNat := BitVec.toInt_eq_toNat_of_lt (by omega)
    rw [harg]
    exact ⟨Int.natCast_nonneg _, by exact_mod_cast h⟩

theorem State.toNat_argBits {w : Nat} (h : (s.a[i]).toNat < 2 ^ w) :
    (s.argBits w i).toNat = (s.a[i]).toNat := by
  rw [State.argBits, BitVec.toNat_setWidth, Nat.mod_eq_of_lt h]

end

end Sys2Proof.Machine
end

section
/-! SUPPORT. The bitfield codec (40_bitfield_byteorder.md R100 to R104) in plain arithmetic, for every layout
that fills its word, and BF.PACK and BF.UNPACK as its two directions. -/

namespace Sys2Proof.Machine

/-! ### The codec in plain arithmetic -/

/-- The word that fields of the listed widths make up, the first field highest. -/
def placeFields : List Nat → List Nat → Nat
  | _ :: widths, value :: values => value * 2 ^ widths.sum + placeFields widths values
  | _, _ => 0

/-- The fields of the listed widths in a word, the first field highest. -/
def takeFields : List Nat → Nat → List Nat
  | [], _ => []
  | width :: widths, word => word / 2 ^ widths.sum % 2 ^ width :: takeFields widths word

/-- Each value fits its width. -/
def FieldsFit (widths values : List Nat) : Prop :=
  List.Forall₂ (fun width value => value < 2 ^ width) widths values

theorem placeFields_lt {widths values : List Nat} (h : FieldsFit widths values) :
    placeFields widths values < 2 ^ widths.sum := by
  induction h with
  | nil => exact Nat.one_pos
  | @cons width value widths values hvalue _ ih =>
    calc value * 2 ^ widths.sum + placeFields widths values
        < (value + 1) * 2 ^ widths.sum := by rw [Nat.succ_mul]; exact Nat.add_lt_add_left ih _
      _ ≤ 2 ^ width * 2 ^ widths.sum := Nat.mul_le_mul_right _ hvalue
      _ = 2 ^ (width :: widths).sum := by rw [← pow_add, List.sum_cons]

theorem fieldsFit_takeFields (widths : List Nat) (word : Nat) :
    FieldsFit widths (takeFields widths word) := by
  induction widths with
  | nil => exact .nil
  | cons width widths ih => exact .cons (Nat.mod_lt _ (Nat.two_pow_pos width)) ih

/-- The fields of a word are those placed in it, whatever stands above them. -/
theorem takeFields_placeFields {widths values : List Nat} (h : FieldsFit widths values) (above : Nat) :
    takeFields widths (above * 2 ^ widths.sum + placeFields widths values) = values := by
  induction h generalizing above with
  | nil => rfl
  | @cons width value widths values hvalue hvalues ih =>
    have hword : above * 2 ^ (width :: widths).sum + placeFields (width :: widths) (value :: values)
        = (above * 2 ^ width + value) * 2 ^ widths.sum + placeFields widths values := by
      rw [placeFields, List.sum_cons, pow_add]; ring
    have hdiv : ((above * 2 ^ width + value) * 2 ^ widths.sum + placeFields widths values)
        / 2 ^ widths.sum = above * 2 ^ width + value := by
      rw [Nat.add_comm, Nat.add_mul_div_right _ _ (Nat.two_pow_pos _),
        Nat.div_eq_of_lt (placeFields_lt hvalues), Nat.zero_add]
    rw [hword, takeFields, hdiv, ih, Nat.mul_add_mod', Nat.mod_eq_of_lt hvalue]

/-- Fields taken from a word and placed again give its low bits, as many as the fields have. -/
theorem placeFields_takeFields (widths : List Nat) (word : Nat) :
    placeFields widths (takeFields widths word) = word % 2 ^ widths.sum := by
  induction widths with
  | nil => exact (Nat.mod_one word).symm
  | cons width widths ih =>
    rw [takeFields, placeFields, ih, List.sum_cons, Nat.add_comm width, pow_add, Nat.mod_mul]
    ring

/-! ### The loops of R100 and R101 -/

/-- The loop of `bf_pack` adds the fields still to come to what stands above them. -/
theorem toNat_bfPackFrom {W : Nat} {widths : List Nat} {values : List (BitVec W)}
    (hfit : FieldsFit widths (values.map BitVec.toNat)) {cursor : Nat} {acc : BitVec W}
    (hsum : cursor + widths.sum = W) (hacc : 2 ^ widths.sum ∣ acc.toNat) :
    (bfPackFrom W cursor acc widths values).toNat
      = acc.toNat + placeFields widths (values.map BitVec.toNat) := by
  induction values generalizing widths cursor acc with
  | nil => cases hfit; rfl
  | cons value values ih =>
    cases hfit with
    | @cons width _ widths _ hvalue hvalues =>
      rw [List.sum_cons] at hsum hacc
      have hshift : W - cursor - width = widths.sum := by omega
      have hfield : value.toNat * 2 ^ widths.sum < 2 ^ (width + widths.sum) := by
        rw [pow_add]; exact Nat.mul_lt_mul_of_pos_right hvalue (Nat.two_pow_pos _)
      have hword : value.toNat * 2 ^ widths.sum < 2 ^ W :=
        hfield.trans_le (Nat.pow_le_pow_right Nat.two_pos (by omega))
      have hstep : (acc ||| value <<< widths.sum).toNat = acc.toNat + value.toNat * 2 ^ widths.sum := by
        obtain ⟨above, habove⟩ := hacc
        rw [BitVec.toNat_or, BitVec.toNat_shiftLeft, Nat.shiftLeft_eq, Nat.mod_eq_of_lt hword, habove,
          Nat.two_pow_add_eq_or_of_lt hfield]
      have hdvd : 2 ^ widths.sum ∣ (acc ||| value <<< widths.sum).toNat := by
        rw [hstep]
        exact Nat.dvd_add ((pow_dvd_pow 2 (Nat.le_add_left _ _)).trans hacc) (Nat.dvd_mul_left _ _)
      rw [bfPackFrom, hshift, ih hvalues (by omega) hdvd, hstep, List.map_cons, placeFields,
        Nat.add_assoc]

theorem toNat_bfPack {W : Nat} {widths : List Nat} {values : List (BitVec W)}
    (hsum : widths.sum = W) (hfit : FieldsFit widths (values.map BitVec.toNat)) :
    (bfPack W widths values).toNat = placeFields widths (values.map BitVec.toNat) := by
  rw [bfPack, toNat_bfPackFrom hfit (by omega) (by simp)]
  simp

/-- Shifting the bits above a field out, and then those below it. -/
theorem toNat_shiftLeft_ushiftRight {W offset width below : Nat} (hW : offset + (width + below) = W)
    (word : BitVec W) :
    ((word <<< offset) >>> (W - width)).toNat = word.toNat / 2 ^ below % 2 ^ width := by
  have hright : W - width = offset + below := by omega
  have hpow : 2 ^ W = 2 ^ offset * (2 ^ below * 2 ^ width) := by rw [← hW, pow_add, pow_add]; ring
  rw [BitVec.toNat_ushiftRight, BitVec.toNat_shiftLeft, Nat.shiftLeft_eq, Nat.shiftRight_eq_div_pow,
    hright, hpow, pow_add, Nat.mul_comm word.toNat, Nat.mul_mod_mul_left,
    Nat.mul_div_mul_left _ _ (Nat.two_pow_pos offset), Nat.mod_mul_right_div_self]

theorem toNat_bfUnpackFrom {W offset : Nat} {widths : List Nat} (hsum : offset + widths.sum = W)
    (word : BitVec W) :
    (bfUnpackFrom W offset widths word).map BitVec.toNat = takeFields widths word.toNat := by
  induction widths generalizing offset with
  | nil => rfl
  | cons width widths ih =>
    rw [List.sum_cons] at hsum
    rw [bfUnpackFrom, List.map_cons, toNat_shiftLeft_ushiftRight hsum, ih (by omega), takeFields]

theorem toNat_bfUnpack {W : Nat} {widths : List Nat} (hsum : widths.sum = W) (word : BitVec W) :
    (bfUnpack W widths word).map BitVec.toNat = takeFields widths word.toNat :=
  toNat_bfUnpackFrom (by omega) word


/-! ### BF.PACK and BF.UNPACK -/

theorem bfLayout_sum : Config.bfLayout.sum = 32 := rfl

/-- The argument registers of BF.PACK, in the order of the layout. -/
abbrev packRegisters : List (Fin 8) := [0, 1, 2, 3, 4, 5]

/-- The six fields that BF.PACK reads, as unsigned values. -/
def packOperands (s : State) : List Nat := packRegisters.map fun i => (s.a[i]).toNat

theorem packRegisters_getElem : ∀ (k : Fin 8) (hk : k.val < 6), packRegisters[k.val] = k := by
  decide

theorem getElem_packOperands (s : State) {k : Fin 8} (hk : k.val < 6) :
    ((packOperands s).map wordOfNat)[k.val]'hk = s.a[k] := by
  simp only [packOperands, List.getElem_map, packRegisters_getElem k hk, wordOfNat_toNat]

theorem setIfInBounds_eq_set (r : Vector Word 8) {i : Nat} (hi : i < 8) (v : Word) :
    r.setIfInBounds i v = r.set i v := by
  ext k hk
  rw [Vector.getElem_setIfInBounds, Vector.getElem_set]

/-- BF.UNPACK's results, written out register by register. -/
theorem writeFrom_zero_six (v₀ v₁ v₂ v₃ v₄ v₅ : Word) (r : Vector Word 8) :
    writeFrom 0 [v₀, v₁, v₂, v₃, v₄, v₅] r =
      (((((r.set 0 v₀).set 1 v₁).set 2 v₂).set 3 v₃).set 4 v₄).set 5 v₅ := by
  simp only [writeFrom]
  repeat rw [setIfInBounds_eq_set _ (by decide)]

theorem operandsInRange_bfPack_iff (s : State) :
    OperandsInRange .bfPack s ↔ FieldsFit Config.bfLayout (packOperands s) := by
  rw [operandsInRange_iff (by decide) (by decide)]
  simp only [rangeTable, List.forall_mem_cons, FieldsFit, Config.bfLayout, packOperands, List.map,
    List.forall₂_cons]
  exact and_congr (State.arg_inRange_iff 2 (by decide)) <|
    and_congr (State.arg_inRange_iff 5 (by decide)) <|
    and_congr (State.arg_inRange_iff 5 (by decide)) <|
    and_congr (State.arg_inRange_iff 6 (by decide)) <|
    and_congr (State.arg_inRange_iff 6 (by decide)) <|
    and_congr (State.arg_inRange_iff 8 (by decide)) <| iff_of_true nofun .nil

theorem operandsInRange_bfUnpack_iff (s : State) :
    OperandsInRange .bfUnpack s ↔ (s.a[(6 : Fin 8)]).toNat < 2 ^ 32 := by
  rw [operandsInRange_iff (by decide) (by decide), rangeTable, List.forall_mem_singleton]
  exact State.arg_inRange_iff 32 (by decide)

theorem arg_packRegister {s : State} (h : OperandsInRange .bfPack s) :
    ∀ i ∈ packRegisters, s.arg i = (s.a[i]).toNat := by
  have hrow : ∀ i ∈ packRegisters, ∃ f ∈ rangeTable .bfPack, f.reg = i ∧ f.lo = 0 := by decide
  intro i hi
  obtain ⟨f, hf, rfl, hlo⟩ := hrow i hi
  exact State.arg_eq_toNat (hlo ▸ (h.2 f hf).1)

/-- The words that BF.PACK places are the operands, where these are in range. -/
theorem toNat_packWords {s : State} (h : FieldsFit Config.bfLayout (packOperands s)) :
    (addressFields s ++ [s.argBits 32 5]).map BitVec.toNat = packOperands s := by
  have hfield {i : Fin 8} {width : Nat} (hlt : (s.a[i]).toNat < 2 ^ width) (hwidth : width ≤ 32) :
      (s.argBits 32 i).toNat = (s.a[i]).toNat :=
    State.toNat_argBits (hlt.trans_le (Nat.pow_le_pow_right Nat.two_pos hwidth))
  simp only [FieldsFit, Config.bfLayout, packOperands, List.map, List.forall₂_cons] at h
  obtain ⟨h₀, h₁, h₂, h₃, h₄, h₅, -⟩ := h
  simp only [addressFields, packOperands, List.cons_append, List.nil_append, List.map,
    hfield h₀ (by decide), hfield h₁ (by decide), hfield h₂ (by decide), hfield h₃ (by decide),
    hfield h₄ (by decide), hfield h₅ (by decide)]

theorem exec_bfPack_of_inRange {s : State} (h : OperandsInRange .bfPack s) :
    exec .bfPack s = .next
      (s.setR 6 (wordOfNat (placeFields Config.bfLayout (packOperands s)))).succeed := by
  have hfit := (operandsInRange_bfPack_iff s).1 h
  have hwords := toNat_packWords hfit
  rw [exec_of_operandsInRange (effect := fun s => s.setR 6
      ((bfPack 32 Config.bfLayout (addressFields s ++ [s.argBits 32 5])).setWidth 64)) rfl h,
    ← BitVec.ofNat_toNat, toNat_bfPack bfLayout_sum (hwords ▸ hfit), hwords, wordOfNat]

theorem exec_bfUnpack_of_inRange {s : State} (h : OperandsInRange .bfUnpack s) :
    exec .bfUnpack s = .next
      (s.setResults 0 ((takeFields Config.bfLayout (s.a[(6 : Fin 8)]).toNat).map wordOfNat)).succeed := by
  have hwords : (bfUnpack 32 Config.bfLayout (s.argBits 32 6)).map (·.setWidth 64)
      = (takeFields Config.bfLayout (s.a[(6 : Fin 8)]).toNat).map wordOfNat := by
    rw [← State.toNat_argBits ((operandsInRange_bfUnpack_iff s).1 h), ← toNat_bfUnpack bfLayout_sum,
      List.map_map]
    exact List.map_congr_left fun v _ => (BitVec.ofNat_toNat 64 v).symm
  rw [exec_of_operandsInRange (effect := fun s => s.setResults 0
      ((bfUnpack 32 Config.bfLayout (s.argBits 32 6)).map (·.setWidth 64))) rfl h, hwords]

/-- Registers that hold fields fitting the layout are BF.PACK's operands. -/
theorem packOperands_of_fields {s : State} {values : List Nat} {r : Vector Word 8}
    (ha : s.a = writeFrom 0 (values.map wordOfNat) r) (hfit : FieldsFit Config.bfLayout values) :
    packOperands s = values := by
  have hvalue {v w : Nat} (h : v < 2 ^ w) (hw : w ≤ 64) : (wordOfNat v).toNat = v :=
    toNat_wordOfNat (h.trans_le (Nat.pow_le_pow_right Nat.two_pos hw))
  obtain ⟨⟩ | ⟨h₀, ⟨⟩ | ⟨h₁, ⟨⟩ | ⟨h₂, ⟨⟩ | ⟨h₃, ⟨⟩ | ⟨h₄, ⟨⟩ | ⟨h₅, ⟨⟩⟩⟩⟩⟩⟩⟩ := hfit
  simp [packOperands, ha, writeFrom_zero_six, hvalue h₀, hvalue h₁, hvalue h₂, hvalue h₃, hvalue h₄,
    hvalue h₅]

/-- BF.PACK of the fields that an earlier command delivered. -/
theorem exec_bfPack_of_fields {s : State} {values : List Nat} {r : Vector Word 8}
    (ha : s.a = writeFrom 0 (values.map wordOfNat) r) (hfit : FieldsFit Config.bfLayout values) :
    exec .bfPack s = .next (s.setR 6 (wordOfNat (placeFields Config.bfLayout values))).succeed := by
  have hoperands := packOperands_of_fields ha hfit
  rw [exec_bfPack_of_inRange ((operandsInRange_bfPack_iff s).2 (hoperands ▸ hfit)), hoperands]

/-- BF.UNPACK of a word that an earlier command delivered. -/
theorem exec_bfUnpack_of_word {s : State} {word : Nat} (ha : s.a[(6 : Fin 8)] = wordOfNat word)
    (hword : word < 2 ^ 32) :
    exec .bfUnpack s = .next
      (s.setResults 0 ((takeFields Config.bfLayout word).map wordOfNat)).succeed := by
  have htoNat : (s.a[(6 : Fin 8)]).toNat = word := by
    rw [ha, toNat_wordOfNat (hword.trans (by decide))]
  rw [exec_bfUnpack_of_inRange ((operandsInRange_bfUnpack_iff s).2 (htoNat ▸ hword)), htoNat]

/-! ### The statements -/

/-- Settles O19: the sum is what `placeFields` makes of the six operands. -/
theorem bfPackResult : Obligations.BfPackResult := by
  refine fun s => ⟨fun h => ?_, raisesFirstRangeError_of_checks rfl (by decide) (by decide)⟩
  have harg := arg_packRegister h
  have hsum : s.arg 0 * 2 ^ 30 + s.arg 1 * 2 ^ 25 + s.arg 2 * 2 ^ 20 + s.arg 3 * 2 ^ 14
      + s.arg 4 * 2 ^ 8 + s.arg 5 = placeFields Config.bfLayout (packOperands s) := by
    rw [harg 0 (by decide), harg 1 (by decide), harg 2 (by decide), harg 3 (by decide),
      harg 4 (by decide), harg 5 (by decide)]
    simp only [placeFields, packOperands, Config.bfLayout, List.map, List.sum_cons, List.sum_nil]
    push_cast
    ring
  rw [exec_bfPack_of_inRange h, hsum, BitVec.ofInt_natCast]
  rfl

/-- Settles O20: the quotients and remainders are what `takeFields` makes of the word. -/
theorem bfUnpackResult : Obligations.BfUnpackResult := by
  refine fun s => ⟨fun w hw hlt => ?_, raisesFirstRangeError_of_checks rfl (by decide) (by decide)⟩
  have hword : (s.a[(6 : Fin 8)]).toNat = w := by
    rw [State.arg_eq_toNat (by omega)] at hw
    exact_mod_cast hw
  have h : OperandsInRange .bfUnpack s := (operandsInRange_bfUnpack_iff s).2 (by rwa [hword])
  have htop : w / 2 ^ 30 % 2 ^ 2 = w / 2 ^ 30 := Nat.mod_eq_of_lt (by omega)
  have hfields : takeFields Config.bfLayout w = [w / 2 ^ 30, w / 2 ^ 25 % 32, w / 2 ^ 20 % 32,
      w / 2 ^ 14 % 64, w / 2 ^ 8 % 64, w % 256] := by
    rw [← htop]
    simp [takeFields, Config.bfLayout]
  rw [exec_bfUnpack_of_inRange h, hword, hfields]
  simp only [State.setResults, List.map, writeFrom_zero_six, State.succeed, wordOfNat]

/-- Settles O21: `takeFields_placeFields` in one direction, `placeFields_takeFields` in the other. -/
theorem bitfieldRoundTrip : Obligations.BitfieldRoundTrip := by
  refine fun s => ⟨fun h => ?_, fun h => ?_⟩
  · have hfit := (operandsInRange_bfPack_iff s).1 h
    refine ⟨_, _, exec_bfPack_of_inRange h, exec_bfUnpack_of_word (by simp) (placeFields_lt hfit),
      fun k hk => ?_⟩
    have hfields := takeFields_placeFields hfit 0
    rw [Nat.zero_mul, Nat.zero_add] at hfields
    rw [hfields, State.succeed_r, State.setResults_r, Fin.getElem_fin, writeFrom_getElem,
      dif_pos ⟨Nat.zero_le _, hk⟩]
    exact getElem_packOperands s hk
  · have hfit := fieldsFit_takeFields Config.bfLayout (s.a[(6 : Fin 8)]).toNat
    refine ⟨_, _, exec_bfUnpack_of_inRange h, exec_bfPack_of_fields (r := s.r) (by simp) hfit, ?_⟩
    have hlt := (operandsInRange_bfUnpack_iff s).1 h
    rw [placeFields_takeFields, bfLayout_sum, Nat.mod_eq_of_lt hlt, wordOfNat_toNat]
    simp

end Sys2Proof.Machine
end

section
/-! SUPPORT. The byte-order helpers (40_bitfield_byteorder.md R105 to R116): the five byte orders with their two
directions inverse to each other, and the PUT and GET commands as those two directions. -/

namespace Sys2Proof.Machine

/-! ### Bytes of a value -/

/-- A byte of the low bits of a register word, in plain arithmetic on the operand. -/
theorem extractLsb'_argBits {s : State} {i : Fin 8} (h : 0 ≤ s.arg i) {w j : Nat} (hj : j + 8 ≤ w) :
    (s.argBits w i).extractLsb' j 8 = BitVec.ofInt 8 (s.arg i / 2 ^ j) := by
  have hquot : s.arg i / 2 ^ j = ((s.a[i]).toNat / 2 ^ j : Nat) := by
    rw [State.arg_eq_toNat h]
    push_cast
    rfl
  have hw : 2 ^ w = 2 ^ j * (2 ^ 8 * 2 ^ (w - j - 8)) := by
    rw [← pow_add, ← pow_add]
    congr 1
    omega
  apply BitVec.eq_of_toNat_eq
  rw [hquot, BitVec.ofInt_natCast, BitVec.toNat_ofNat, BitVec.extractLsb'_toNat,
    Nat.shiftRight_eq_div_pow, State.argBits, BitVec.toNat_setWidth, hw, Nat.mod_mul_right_div_self,
    Nat.mod_mul_right_mod]

theorem argBits_eight {s : State} {i : Fin 8} (h : 0 ≤ s.arg i) :
    s.argBits 8 i = BitVec.ofInt 8 (s.arg i) := by
  have hbyte := extractLsb'_argBits h (w := 8) (j := 0) le_rfl
  rwa [BitVec.extractLsb'_eq_self, pow_zero, Int.ediv_one] at hbyte

theorem toNat_byte {w : Nat} (v : BitVec w) (j : Nat) :
    (v.extractLsb' j 8).toNat = v.toNat / 2 ^ j % 256 := by
  rw [BitVec.extractLsb'_toNat, Nat.shiftRight_eq_div_pow]

/-! ### Integers of bytes -/

theorem le16At_pair (b₀ b₁ : Byte) : le16At [b₀, b₁] 0 = b₀.toNat + 256 * b₁.toNat := rfl

theorem be16At_pair (b₀ b₁ : Byte) : be16At [b₀, b₁] 0 = 256 * b₀.toNat + b₁.toNat := rfl

theorem le32At_four (b₀ b₁ b₂ b₃ : Byte) :
    le32At [b₀, b₁, b₂, b₃] 0
      = b₀.toNat + 2 ^ 8 * b₁.toNat + 2 ^ 16 * b₂.toNat + 2 ^ 24 * b₃.toNat :=
  rfl

theorem be32At_four (b₀ b₁ b₂ b₃ : Byte) :
    be32At [b₀, b₁, b₂, b₃] 0
      = 2 ^ 24 * b₀.toNat + 2 ^ 16 * b₁.toNat + 2 ^ 8 * b₂.toNat + b₃.toNat :=
  rfl

/-! ### The five byte orders -/

/-- A byte order for `w`-bit values: `bytes` writes a value as `size` bytes, `value` reads them back. -/
structure ByteOrder (w size : Nat) (bytes : BitVec w → Span) (value : Span → Nat) : Prop where
  length_bytes : ∀ v, (bytes v).length = size
  value_bytes : ∀ v, value (bytes v) = v.toNat
  bytes_value : ∀ B, B.length = size → bytes (BitVec.ofNat w (value B)) = B

theorem byteOrder_u8 : ByteOrder 8 1 (fun v => [v]) (byteAt · 0) where
  length_bytes _ := rfl
  value_bytes _ := rfl
  bytes_value B hB := by
    obtain ⟨b, rfl⟩ := List.length_eq_one_iff.1 hB
    exact congrArg ([·]) (BitVec.ofNat_toNat 8 b |>.trans (BitVec.setWidth_eq b))

theorem byteOrder_le16 : ByteOrder 16 2 le16 (le16At · 0) where
  length_bytes _ := rfl
  value_bytes v := by
    simp only [le16, le16At_pair, toNat_byte]
    omega
  bytes_value B hB := by
    obtain ⟨b₀, b₁, rfl⟩ := List.length_eq_two.1 hB
    simp only [le16, le16At_pair, List.cons.injEq, BitVec.toNat_eq, toNat_byte, BitVec.toNat_ofNat,
      and_true]
    omega

theorem byteOrder_le32 : ByteOrder 32 4 le32 (le32At · 0) where
  length_bytes _ := rfl
  value_bytes v := by
    simp only [le32, le32At_four, toNat_byte]
    omega
  bytes_value B hB := by
    obtain ⟨b₀, b₁, b₂, b₃, rfl⟩ := List.length_eq_four.1 hB
    simp only [le32, le32At_four, List.cons.injEq, BitVec.toNat_eq, toNat_byte, BitVec.toNat_ofNat,
      and_true]
    omega

/-- A byte order from another one by reversing the bytes. -/
theorem ByteOrder.reverse {w size : Nat} {bytes bytes' : BitVec w → Span} {value value' : Span → Nat}
    (order : ByteOrder w size bytes value) (hbytes : ∀ v, bytes' v = (bytes v).reverse)
    (hvalue : ∀ B, B.length = size → value' B = value B.reverse) : ByteOrder w size bytes' value' where
  length_bytes v := by rw [hbytes, List.length_reverse, order.length_bytes]
  value_bytes v := by
    rw [hbytes, hvalue _ (by rw [List.length_reverse, order.length_bytes]), List.reverse_reverse,
      order.value_bytes]
  bytes_value B hB := by
    rw [hbytes, hvalue B hB, order.bytes_value _ (by rw [List.length_reverse, hB]),
      List.reverse_reverse]

theorem be16_eq_reverse (v : BitVec 16) : be16 v = (le16 v).reverse := rfl

theorem be32_eq_reverse (v : BitVec 32) : be32 v = (le32 v).reverse := rfl

theorem byteOrder_be16 : ByteOrder 16 2 be16 (be16At · 0) :=
  byteOrder_le16.reverse be16_eq_reverse fun B hB => by
    obtain ⟨b₀, b₁, rfl⟩ := List.length_eq_two.1 hB
    exact (be16At_pair b₀ b₁).trans (Nat.add_comm ..)

theorem byteOrder_be32 : ByteOrder 32 4 be32 (be32At · 0) :=
  byteOrder_le32.reverse be32_eq_reverse fun B hB => by
    obtain ⟨b₀, b₁, b₂, b₃, rfl⟩ := List.length_eq_four.1 hB
    have hreverse : [b₀, b₁, b₂, b₃].reverse = [b₃, b₂, b₁, b₀] := rfl
    rw [be32At_four, hreverse, le32At_four]
    omega

theorem ByteOrder.value_lt {w size : Nat} {bytes : BitVec w → Span} {value : Span → Nat}
    (order : ByteOrder w size bytes value) {B : Span} (hB : B.length = size) : value B < 2 ^ w := by
  rw [← order.bytes_value B hB, order.value_bytes]
  exact BitVec.isLt _

/-! ### PUT commands -/

/-- A command that writes the `w`-bit operand `A[0]` to the output span by `bytes`, where it is in range. -/
structure PutsBytes (i : Instr) (w : Nat) (bytes : BitVec w → Span) : Prop where
  exec_eq : ∀ s, exec i s = .next (putValue s (2 ^ w - 1) (bytes (s.argBits w 0)))
  rows : rangeTable i = [⟨0, 0, 2 ^ w - 1, .value⟩]
  width_lt : w < 64
  computes_no_length : i ≠ .cpPack ∧ i ≠ .spPack

theorem putsBytes_u8 : PutsBytes .putU8 8 fun v => [v] := ⟨fun _ => rfl, rfl, by decide, by decide⟩

theorem putsBytes_le16 : PutsBytes .putLe16 16 le16 := ⟨fun _ => rfl, rfl, by decide, by decide⟩

theorem putsBytes_be16 : PutsBytes .putBe16 16 be16 := ⟨fun _ => rfl, rfl, by decide, by decide⟩

theorem putsBytes_le32 : PutsBytes .putLe32 32 le32 := ⟨fun _ => rfl, rfl, by decide, by decide⟩

theorem putsBytes_be32 : PutsBytes .putBe32 32 be32 := ⟨fun _ => rfl, rfl, by decide, by decide⟩

section
variable {i : Instr} {w : Nat} {bytes : BitVec w → Span} (put : PutsBytes i w bytes) (s : State)
include put

theorem PutsBytes.exec_eq_command :
    exec i s = .next (s.command ((rangeTable i).map (·.check s))
      (·.memWrite (bytes (s.argBits w 0)))) := by
  rw [put.exec_eq, put.rows]
  rfl

theorem PutsBytes.operandsInRange_iff : OperandsInRange i s ↔ 0 ≤ s.arg 0 ∧ s.arg 0 ≤ 2 ^ w - 1 := by
  rw [Machine.operandsInRange_iff put.computes_no_length.1 put.computes_no_length.2, put.rows,
    List.forall_mem_singleton]

theorem PutsBytes.raisesFirstRangeError : RaisesFirstRangeError i s :=
  raisesFirstRangeError_of_checks (put.exec_eq_command s) put.computes_no_length.1
    put.computes_no_length.2

variable {s}

theorem PutsBytes.exec_of_inRange (h : OperandsInRange i s) :
    exec i s = .next (s.memWrite (bytes (s.argBits w 0))).succeed :=
  exec_of_operandsInRange (put.exec_eq_command s) h

/-- The next state of a PUT whose bytes are known, as one record update. -/
theorem PutsBytes.exec_eq_of_bytes (hlo : 0 ≤ s.arg 0) (hhi : s.arg 0 ≤ 2 ^ w - 1) {B : Span}
    (hB : bytes (s.argBits w 0) = B) :
    exec i s = .next { s with obuf := B, status := statusOk s.status } := by
  rw [put.exec_of_inRange ((put.operandsInRange_iff s).2 ⟨hlo, hhi⟩), hB]
  rfl

end

/-! ### GET commands -/

/-- A command that delivers the integer `value` of an input span of `size` bytes in `R[0]`. -/
def GetsValue (i : Instr) (size : Nat) (value : Span → Nat) : Prop :=
  ∀ s, exec i s = .next (getValue s size (value s.ibuf))

theorem getsValue_u8 : GetsValue .getU8 1 (byteAt · 0) := fun _ => rfl

theorem getsValue_le16 : GetsValue .getLe16 2 (le16At · 0) := fun _ => rfl

theorem getsValue_be16 : GetsValue .getBe16 2 (be16At · 0) := fun _ => rfl

theorem getsValue_le32 : GetsValue .getLe32 4 (le32At · 0) := fun _ => rfl

theorem getsValue_be32 : GetsValue .getBe32 4 (be32At · 0) := fun _ => rfl

section
variable {i : Instr} {size : Nat} {value : Span → Nat} (get : GetsValue i size value) {s : State}
include get

theorem GetsValue.exec_of_size (h : s.ibuf.length = size) :
    exec i s = .next (s.setR 0 (wordOfNat (value s.ibuf))).succeed := by
  rw [get, getValue, State.command_of_holds _ _ (by simpa [sizeIs_holds_iff] using h)]

theorem GetsValue.exec_of_ne_size (h : s.ibuf.length ≠ size) :
    exec i s = .next (s.raise ⟨.length, .inputSpan⟩) := by
  have hfails : (sizeIs s.ibuf size).holds = false :=
    Bool.eq_false_iff.2 fun hsize => h ((sizeIs_holds_iff _ _).1 hsize)
  rw [get, getValue, State.command_of_error _ _ (firstError_cons_of_fails _ hfails), sizeIs_error]

/-- The next state of a GET whose integer is known, as one record update. -/
theorem GetsValue.exec_eq_of_value (h : s.ibuf.length = size) {n : Nat} (hn : value s.ibuf = n) :
    exec i s = .next { s with r := s.r.set 0 (BitVec.ofNat 64 n), status := statusOk s.status } := by
  rw [get.exec_of_size h, hn]
  rfl

/-- A GET that succeeded had a span of its size. -/
theorem GetsValue.size_of_success {t : State} (h : exec i s = .next t) (hok : statusKind t.status = 0) :
    s.ibuf.length = size := by
  by_contra hsize
  obtain rfl := Host.Outcome.next.inj ((get.exec_of_ne_size hsize).symm.trans h)
  rw [State.raise_status, statusKind_statusRaise] at hok
  exact kindCode_ne_zero _ hok

end

/-! ### Round trips (40_bitfield_byteorder.md R116) -/

/-- What R116 says of the PUT `i` and the GET `j` of one width and order. -/
def RoundTrips (i j : Instr) (s : State) : Prop :=
  (OperandsInRange i s →
    ∃ t u v, exec i s = .next t ∧ exec .xfer t = .next u ∧ exec j u = .next v ∧ v.r[0] = s.a[0]) ∧
  (∀ t, exec j s = .next t → statusKind t.status = 0 →
    ∃ u, exec i t.argsFromResults = .next u ∧ u.obuf = s.ibuf)

theorem exec_xfer (s : State) : exec .xfer s = .next (s.loadSpan s.obuf).succeed := rfl

section
variable {i j : Instr} {w size : Nat} {bytes : BitVec w → Span}
  (put : PutsBytes i w bytes) (s : State)
include put

theorem roundTrips_of_byteOrder {value : Span → Nat} (get : GetsValue j size value)
    (order : ByteOrder w size bytes value) : RoundTrips i j s := by
  refine ⟨fun h => ?_, fun t ht hok => ?_⟩
  · have hlt := (State.arg_inRange_iff w put.width_lt).1 ((put.operandsInRange_iff s).1 h)
    refine ⟨_, _, _, put.exec_of_inRange h, exec_xfer _, get.exec_of_size (order.length_bytes _), ?_⟩
    have hvalue : value (bytes (s.argBits w 0)) = (s.a[0]).toNat :=
      (order.value_bytes _).trans (State.toNat_argBits hlt)
    simp [hvalue, wordOfNat_toNat]
  · have hsize := get.size_of_success ht hok
    obtain rfl := Host.Outcome.next.inj ((get.exec_of_size hsize).symm.trans ht)
    have hlt := order.value_lt hsize
    have hw : 2 ^ w ≤ 2 ^ 64 := Nat.pow_le_pow_right Nat.two_pos put.width_lt.le
    refine ⟨_, put.exec_of_inRange ((put.operandsInRange_iff _).2 ?_), ?_⟩
    · rw [State.arg_inRange_iff w put.width_lt]
      simpa [toNat_wordOfNat (hlt.trans_le hw)] using hlt
    · have hbits : (wordOfNat (value s.ibuf)).setWidth w = BitVec.ofNat w (value s.ibuf) :=
        BitVec.setWidth_ofNat_of_le put.width_lt.le _
      simp [State.argBits, hbits, order.bytes_value _ hsize]

/-- Two PUT commands whose bytes are each other's reverse. -/
theorem putsBytes_reverse {bytes' : BitVec w → Span} (put' : PutsBytes j w bytes')
    (hreverse : ∀ v, bytes' v = (bytes v).reverse) (h : OperandsInRange i s) :
    ∃ t u, exec i s = .next t ∧ exec j s = .next u ∧ u.obuf = t.obuf.reverse :=
  ⟨_, _, put.exec_of_inRange h,
    put'.exec_of_inRange ((put'.operandsInRange_iff s).2 ((put.operandsInRange_iff s).1 h)), hreverse _⟩

end

/-! ### The statements -/

/-- Settles O22: each byte is a quotient of the operand by a power of 2, and the check is the command's row of
the table. -/
theorem putHelperResults : Obligations.PutHelperResults := by
  refine fun s => ⟨fun hlo hhi => ?_, fun hlo hhi => ?_, fun hlo hhi => ?_, ?_⟩
  · exact putsBytes_u8.exec_eq_of_bytes hlo hhi (by rw [argBits_eight hlo])
  · have h₀ := extractLsb'_argBits hlo (w := 16) (j := 0) (by decide)
    have h₁ := extractLsb'_argBits hlo (w := 16) (j := 8) (by decide)
    rw [pow_zero, Int.ediv_one] at h₀
    exact ⟨putsBytes_le16.exec_eq_of_bytes hlo hhi (by rw [le16, h₀, h₁]),
      putsBytes_be16.exec_eq_of_bytes hlo hhi (by rw [be16, h₀, h₁])⟩
  · have h₀ := extractLsb'_argBits hlo (w := 32) (j := 0) (by decide)
    have h₁ := extractLsb'_argBits hlo (w := 32) (j := 8) (by decide)
    have h₂ := extractLsb'_argBits hlo (w := 32) (j := 16) (by decide)
    have h₃ := extractLsb'_argBits hlo (w := 32) (j := 24) (by decide)
    rw [pow_zero, Int.ediv_one] at h₀
    exact ⟨putsBytes_le32.exec_eq_of_bytes hlo hhi (by rw [le32, h₀, h₁, h₂, h₃]),
      putsBytes_be32.exec_eq_of_bytes hlo hhi (by rw [be32, h₀, h₁, h₂, h₃])⟩
  · simp only [List.forall_mem_cons]
    exact ⟨putsBytes_u8.raisesFirstRangeError s, putsBytes_le16.raisesFirstRangeError s,
      putsBytes_be16.raisesFirstRangeError s, putsBytes_le32.raisesFirstRangeError s,
      putsBytes_be32.raisesFirstRangeError s, nofun⟩

/-- Settles O23: a span of the command's size delivers its integer, any other raises Length(INPUT_SPAN). -/
theorem getHelperResults : Obligations.GetHelperResults := by
  refine fun s => ⟨fun b₀ h => ?_, fun b₀ b₁ h => ?_, fun b₀ b₁ b₂ b₃ h => ?_, fun h => ?_, fun h => ?_,
    fun h => ?_⟩
  · exact getsValue_u8.exec_eq_of_value (h ▸ rfl) (h ▸ rfl)
  · exact ⟨getsValue_le16.exec_eq_of_value (h ▸ rfl) (h ▸ le16At_pair ..),
      getsValue_be16.exec_eq_of_value (h ▸ rfl) (h ▸ be16At_pair ..)⟩
  · exact ⟨getsValue_le32.exec_eq_of_value (h ▸ rfl) (h ▸ le32At_four ..),
      getsValue_be32.exec_eq_of_value (h ▸ rfl) (h ▸ be32At_four ..)⟩
  · exact getsValue_u8.exec_of_ne_size h
  · exact ⟨getsValue_le16.exec_of_ne_size h, getsValue_be16.exec_of_ne_size h⟩
  · exact ⟨getsValue_le32.exec_of_ne_size h, getsValue_be32.exec_of_ne_size h⟩

/-- Settles O24: each PUT and GET pair is a byte order, and each big-endian one the reverse of the
little-endian one. -/
theorem byteOrderRoundTrip : Obligations.ByteOrderRoundTrip := by
  intro s
  simp only [List.forall_mem_cons]
  exact ⟨⟨roundTrips_of_byteOrder putsBytes_u8 s getsValue_u8 byteOrder_u8,
      roundTrips_of_byteOrder putsBytes_le16 s getsValue_le16 byteOrder_le16,
      roundTrips_of_byteOrder putsBytes_be16 s getsValue_be16 byteOrder_be16,
      roundTrips_of_byteOrder putsBytes_le32 s getsValue_le32 byteOrder_le32,
      roundTrips_of_byteOrder putsBytes_be32 s getsValue_be32 byteOrder_be32, nofun⟩,
    putsBytes_reverse putsBytes_le16 s putsBytes_be16 be16_eq_reverse,
    putsBytes_reverse putsBytes_le32 s putsBytes_be32 be32_eq_reverse, nofun⟩

end Sys2Proof.Machine
end

section
/-! SUPPORT. The CRC engine (41_crc16.md R131 to R141) as arithmetic over GF(2): the bits of one step, the two
other forms of the algorithm, and that a changed accumulator or a changed byte changes the CRC. -/

namespace Sys2Proof.Machine

/-! ### One bit (41_crc16.md R132) -/

/-- The generator feeds back at bits 0, 2 and 15. -/
theorem crcPoly_getLsbD : ∀ k < 16, Config.crcPoly.getLsbD k = decide (k = 0 ∨ k = 2 ∨ k = 15) := by
  decide

theorem crcBitStep_eq (acc : BitVec 16) (d : Bool) :
    crcBitStep acc d = (acc <<< 1) ^^^ (if acc.msb ^^ d then Config.crcPoly else 0) := by
  unfold crcBitStep
  split <;> simp

theorem crcBitStep_getLsbD (acc : BitVec 16) (d : Bool) {k : Nat} (hk : k < 16) :
    (crcBitStep acc d).getLsbD k =
      ((decide (0 < k) && acc.getLsbD (k - 1)) ^^
        (decide (k = 0 ∨ k = 2 ∨ k = 15) && (acc.getLsbD 15 ^^ d))) := by
  have hshift : (acc <<< 1).getLsbD k = (decide (0 < k) && acc.getLsbD (k - 1)) := by
    rw [BitVec.getLsbD_shiftLeft, decide_eq_true hk]
    cases k <;> simp [-BitVec.getLsbD_eq_getElem]
  rw [crcBitStep_eq, BitVec.getLsbD_xor, hshift, BitVec.msb_eq_getLsbD_last]
  cases acc.getLsbD 15 ^^ d <;> simp [crcPoly_getLsbD k hk]

/-- The step loses nothing: its bit 0 is the feedback, which gives bit 15 back, and the other bits move up. -/
theorem crcBitStep_injective (d : Bool) : Function.Injective (crcBitStep · d) := by
  intro acc acc' h
  have hbit (k : Nat) (hk : k < 16) := congrArg (·.getLsbD k) h
  simp only at hbit
  have htop : acc.getLsbD 15 = acc'.getLsbD 15 := by
    have hzero := hbit 0 (by decide)
    rw [crcBitStep_getLsbD _ _ (by decide), crcBitStep_getLsbD _ _ (by decide)] at hzero
    simpa using hzero
  refine BitVec.eq_of_getLsbD_eq fun i hi => ?_
  rcases Nat.lt_or_eq_of_le (Nat.le_of_lt_succ hi) with hlt | rfl
  · have hnext := hbit (i + 1) (by omega)
    rw [crcBitStep_getLsbD _ _ (by omega), crcBitStep_getLsbD _ _ (by omega), htop] at hnext
    simpa using hnext
  · exact htop

/-! ### The bits of a byte by index (41_crc16.md R135, R136) -/

/-- The step for each of the low `n` bits of a byte, most significant first: `streamBits` on the accumulator
alone. -/
def crcLowBits (b : Byte) : Nat → BitVec 16 → BitVec 16
  | 0, acc => acc
  | n + 1, acc => crcLowBits b n (crcBitStep acc (b.getLsbD n))

/-- Shifting the working byte out to the left reads the byte's bits downwards. -/
theorem crcBits_shiftLeft (b : Byte) {n : Nat} (hn : n ≤ 8) (acc : BitVec 16) :
    crcBits n acc (b <<< (8 - n)) = crcLowBits b n acc := by
  induction n generalizing acc with
  | zero => rfl
  | succ n ih =>
    have hmsb : (b <<< (8 - (n + 1))).msb = b.getLsbD n := by
      rw [BitVec.msb_eq_getLsbD_last, BitVec.getLsbD_shiftLeft,
        show 8 - 1 - (8 - (n + 1)) = n by omega]
      simp
    have hshift : b <<< (8 - (n + 1)) <<< 1 = b <<< (8 - n) := by
      rw [← BitVec.shiftLeft_add, show 8 - (n + 1) + 1 = 8 - n by omega]
    rw [crcBits, hmsb, hshift, ih (by omega), crcLowBits]

theorem crcByteStep_eq_crcLowBits (acc : BitVec 16) (b : Byte) :
    crcByteStep acc b = crcLowBits b 8 acc := by
  rw [← crcBits_shiftLeft b le_rfl, Nat.sub_self, BitVec.shiftLeft_zero, crcByteStep]

/-! ### The document's unbounded accumulator (41_crc16.md R131, R133) -/

/-- The document's branch: bit 15 of the accumulator differs from bit 7 of the working byte. -/
theorem crcDocument_branch_iff (acc wb : Nat) :
    (((acc &&& 0x8000) >>> 8) ^^^ (wb &&& 0x80)) ≠ 0 ↔ (acc.testBit 15 ^^ wb.testBit 7) = true := by
  have hacc : acc &&& 0x8000 = (acc.testBit 15).toNat * 2 ^ 15 := Nat.and_two_pow acc 15
  have hwb : wb &&& 0x80 = (wb.testBit 7).toNat * 2 ^ 7 := Nat.and_two_pow wb 7
  rw [hacc, hwb]
  cases acc.testBit 15 <;> cases wb.testBit 7 <;> decide

theorem ofNat_shiftLeft_one (w n : Nat) : BitVec.ofNat w (n <<< 1) = BitVec.ofNat w n <<< 1 := by
  apply BitVec.eq_of_toNat_eq
  simp [Nat.shiftLeft_eq]

theorem ofNat_crcDocumentBit (acc wb : Nat) :
    BitVec.ofNat 16 (crcDocumentBit acc wb)
      = crcBitStep (BitVec.ofNat 16 acc) (BitVec.ofNat 8 wb).msb := by
  have hbranch : ((BitVec.ofNat 16 acc).msb ^^ (BitVec.ofNat 8 wb).msb)
      = (acc.testBit 15 ^^ wb.testBit 7) := by
    rw [BitVec.msb_eq_getLsbD_last, BitVec.msb_eq_getLsbD_last, BitVec.getLsbD_ofNat,
      BitVec.getLsbD_ofNat]
    rfl
  rw [crcDocumentBit, crcBitStep, hbranch]
  simp only [crcDocument_branch_iff]
  split
  · rw [BitVec.ofNat_xor, ofNat_shiftLeft_one]
    rfl
  · exact ofNat_shiftLeft_one 16 acc

theorem ofNat_crcDocumentBits (n acc wb : Nat) :
    BitVec.ofNat 16 (crcDocumentBits n acc wb)
      = crcBits n (BitVec.ofNat 16 acc) (BitVec.ofNat 8 wb) := by
  induction n generalizing acc wb with
  | zero => rfl
  | succ n ih => rw [crcDocumentBits, crcBits, ih, ofNat_crcDocumentBit, ofNat_shiftLeft_one]

/-- Dropping bit 16 at every shift commutes with the whole fold, since no step looks above bit 15. -/
theorem ofNat_foldl_crcDocumentBits (acc : Nat) (B : Span) :
    BitVec.ofNat 16 (B.foldl (fun acc b => crcDocumentBits 8 acc b.toNat) acc)
      = crcFrom (BitVec.ofNat 16 acc) B := by
  refine (List.foldl_hom (BitVec.ofNat 16) fun acc b => ?_).symm
  rw [ofNat_crcDocumentBits, BitVec.ofNat_toNat, BitVec.setWidth_eq]
  rfl

theorem toNat_crc16 (B : Span) : (crc16 B).toNat = crcDocument B := by
  have hfold := ofNat_foldl_crcDocumentBits 0xFFFF B
  rw [crcDocument, Nat.and_two_pow_sub_one_eq_mod _ 16, ← BitVec.toNat_ofNat, hfold]
  rfl

/-! ### A change is seen (41_crc16.md R141) -/

theorem crcBits_injective (n : Nat) (wb : Byte) : Function.Injective (crcBits n · wb) := by
  induction n generalizing wb with
  | zero => exact fun _ _ h => h
  | succ n ih => exact (ih (wb <<< 1)).comp (crcBitStep_injective wb.msb)

theorem crcFrom_injective (B : Span) : Function.Injective (crcFrom · B) := by
  induction B with
  | nil => exact fun _ _ h => h
  | cons b B ih => exact ih.comp (crcBits_injective 8 b)

/-- A byte lined up with the accumulator's top bits, where its bits meet the feedback. -/
def inTopByte (b : Byte) : BitVec 16 := b.setWidth 16 <<< 8

theorem inTopByte_getLsbD (b : Byte) {i : Nat} (hi : i < 8) : (inTopByte b).getLsbD (8 + i) = b.getLsbD i := by
  rw [inTopByte, BitVec.getLsbD_shiftLeft, BitVec.getLsbD_setWidth, Nat.add_sub_cancel_left]
  simp [show 8 + i < 16 by omega, show i < 16 by omega]

theorem inTopByte_injective : Function.Injective inTopByte := fun b b' h =>
  BitVec.eq_of_getLsbD_eq fun i hi => by
    rw [← inTopByte_getLsbD b hi, ← inTopByte_getLsbD b' hi, h]

theorem inTopByte_msb (b : Byte) : (inTopByte b).msb = b.msb := by
  rw [BitVec.msb_eq_getLsbD_last, BitVec.msb_eq_getLsbD_last]
  exact inTopByte_getLsbD b (i := 7) (by decide)

theorem inTopByte_shiftLeft_one (b : Byte) : inTopByte b <<< 1 = inTopByte (b <<< 1) := by
  apply BitVec.eq_of_toNat_eq
  simp only [inTopByte, BitVec.toNat_shiftLeft, BitVec.toNat_setWidth, Nat.shiftLeft_eq]
  omega

/-- One step on an accumulator that holds the working byte in its top byte is the step for the byte's top bit,
with the rest of the byte still in the top byte. -/
theorem crcBitStep_xor_inTopByte (acc : BitVec 16) (wb : Byte) :
    crcBitStep (acc ^^^ inTopByte wb) false = crcBitStep acc wb.msb ^^^ inTopByte (wb <<< 1) := by
  rw [crcBitStep_eq, crcBitStep_eq, BitVec.msb_xor, inTopByte_msb, Bool.xor_false,
    BitVec.shiftLeft_xor_distrib, inTopByte_shiftLeft_one, BitVec.xor_assoc, BitVec.xor_assoc,
    BitVec.xor_comm (inTopByte _)]

/-- Shifting bits in one at a time is adding the byte to the accumulator's top byte and then shifting in zeros,
but for the bits not yet shifted in. -/
theorem crcBits_xor_inTopByte (n : Nat) (acc : BitVec 16) (wb : Byte) :
    crcBits n (acc ^^^ inTopByte wb) 0 = crcBits n acc wb ^^^ inTopByte (wb <<< n) := by
  induction n generalizing acc wb with
  | zero => rw [crcBits, crcBits, BitVec.shiftLeft_zero]
  | succ n ih =>
    obtain ⟨hshift, hmsb⟩ : (0 : Byte) <<< 1 = 0 ∧ (0 : Byte).msb = false := by decide
    rw [crcBits, crcBits, hshift, hmsb, crcBitStep_xor_inTopByte, ih, ← BitVec.shiftLeft_add,
      Nat.add_comm 1 n]

theorem crcByteStep_eq_zero_byte (acc : BitVec 16) (b : Byte) :
    crcByteStep acc b = crcByteStep (acc ^^^ inTopByte b) 0 := by
  have hout : inTopByte (b <<< 8) = 0#16 := by
    rw [BitVec.shiftLeft_eq_zero le_rfl]
    rfl
  rw [crcByteStep, crcByteStep, crcBits_xor_inTopByte, hout, BitVec.xor_zero]

/-- Different bytes lead one accumulator to different ones. -/
theorem crcByteStep_injective_byte (acc : BitVec 16) : Function.Injective (crcByteStep acc) := by
  intro b b' h
  rw [crcByteStep_eq_zero_byte acc b, crcByteStep_eq_zero_byte acc b'] at h
  exact inTopByte_injective ((BitVec.xor_right_inj acc).1 (crcBits_injective 8 0 h))

/-- Changing one byte of a span changes its CRC: the accumulators differ after that byte, and no later byte
brings them together again. -/
theorem crcFrom_ne_of_byte_ne (acc : BitVec 16) (B C : Span) {b b' : Byte} (h : b ≠ b') :
    crcFrom acc (B ++ b :: C) ≠ crcFrom acc (B ++ b' :: C) := by
  rw [crcFrom_append, crcFrom_append, crcFrom_cons, crcFrom_cons]
  exact (crcFrom_injective C).ne ((crcByteStep_injective_byte _).ne h)

theorem crc16_flipBit_ne (B : Span) {k j : Nat} (hk : k < B.length) (hj : j < 8) :
    crc16 (flipBit B k j) ≠ crc16 B := by
  have hmask : (1 : Byte) <<< j ≠ 0 := by
    interval_cases j <;> decide
  have hbyte : B[k] ^^^ ((1 : Byte) <<< j) ≠ B[k] := fun h =>
    hmask ((BitVec.xor_right_inj B[k]).1 (h.trans BitVec.xor_zero.symm))
  have hsplit : B = B.take k ++ B[k] :: B.drop (k + 1) := by simp
  have hne := crcFrom_ne_of_byte_ne Config.crcSeed (B.take k) (B.drop (k + 1)) hbyte
  rw [← hsplit] at hne
  rwa [crc16, crc16, flipBit, List.modify_eq_take_cons_drop hk]

end Sys2Proof.Machine
end

section
/-! SUPPORT. The commands of the CRC engine (41_crc16.md R134 to R139): the next state of each, and streaming as a
composition of what each command does to `CRC_ACC`. -/

namespace Sys2Proof.Machine

/-! ### Operands -/

/-- The low bits of an operand that is a `w`-bit value are that value (30_encoding.md R73). -/
theorem argBits_eq_of_arg {s : State} {i : Fin 8} {w : Nat} {v : BitVec w} (h : s.arg i = v.toNat) :
    s.argBits w i = v := by
  have hnat : (s.a[i]).toNat = v.toNat := by
    rw [State.arg_eq_toNat (by omega)] at h
    exact_mod_cast h
  apply BitVec.eq_of_toNat_eq
  rw [State.toNat_argBits (hnat ▸ v.isLt), hnat]

/-- `seta` of a `w`-bit value gives that value as the operand. -/
theorem State.arg_setA {w : Nat} (hw : w < 64) (s : State) (i : Fin 8) (v : BitVec w) :
    (s.setA i (v.setWidth 64)).arg i = v.toNat := by
  have hpow : 2 ^ w ≤ 2 ^ 63 := Nat.pow_le_pow_right Nat.two_pos (Nat.le_of_lt_succ hw)
  have hval : (v.setWidth 64).toNat = v.toNat := by
    rw [BitVec.toNat_setWidth]
    exact Nat.mod_eq_of_lt (by have := v.isLt; omega)
  have hreg : (s.setA i (v.setWidth 64)).a[i] = v.setWidth 64 := by simp
  rw [State.arg, hreg, BitVec.toInt_eq_toNat_of_lt (by have := v.isLt; omega), hval]

/-- A command whose only operand is a `w`-bit value in `A[0]` accepts every such value. -/
theorem operandsInRange_of_value {i : Instr} {s : State} {w : Nat} {v : BitVec w}
    (hcp : i ≠ .cpPack) (hsp : i ≠ .spPack) (rows : rangeTable i = [⟨0, 0, 2 ^ w - 1, .value⟩])
    (h : s.arg 0 = v.toNat) : OperandsInRange i s := by
  have hlt : (v.toNat : Int) < 2 ^ w := by exact_mod_cast v.isLt
  rw [operandsInRange_iff hcp hsp, rows, List.forall_mem_singleton, FieldRange.holds, h]
  exact ⟨Int.natCast_nonneg _, Int.le_sub_one_of_lt hlt⟩

/-! ### The next state of each command -/

theorem exec_crcInit (s : State) :
    exec .crcInit s = .next { s with crcAcc := 0xFFFF#16, status := statusOk s.status } := rfl

theorem exec_crcRead (s : State) :
    exec .crcRead s = .next
      { s with
        r := s.r.set 0 (s.crcAcc.setWidth 64)
        obuf := crcWire s.crcAcc
        status := statusOk s.status } := rfl

theorem exec_crcSpan (s : State) :
    exec .crcSpan s = .next
      { s with
        r := s.r.set 0 ((crc16 s.ibuf).setWidth 64)
        obuf := crcWire (crc16 s.ibuf)
        crcAcc := crc16 s.ibuf
        status := statusOk s.status } := rfl

/-- CRC.BIT is the row of its operand in the table of R271 and one step. -/
theorem exec_crcBit_eq_command (s : State) :
    exec .crcBit s = .next (s.command ((rangeTable .crcBit).map (·.check s)) fun s =>
      { s with crcAcc := crcBitStep s.crcAcc (s.argBits 1 0).msb }) := rfl

/-- CRC.BYTE is the row of its operand in the table of R271 and one byte step. -/
theorem exec_crcByte_eq_command (s : State) :
    exec .crcByte s = .next (s.command ((rangeTable .crcByte).map (·.check s)) fun s =>
      { s with crcAcc := crcByteStep s.crcAcc (s.argBits 8 0) }) := rfl

theorem exec_crcBit_of_arg {s : State} {d : Bool} (h : s.arg 0 = (BitVec.ofBool d).toNat) :
    exec .crcBit s = .next
      { s with crcAcc := crcBitStep s.crcAcc d, status := statusOk s.status } := by
  have hrange : OperandsInRange .crcBit s :=
    operandsInRange_of_value (by decide) (by decide) rfl h
  have hmsb : (s.argBits 1 0).msb = d := by
    rw [argBits_eq_of_arg h]
    exact BitVec.msb_ofBool d
  rw [exec_of_operandsInRange (exec_crcBit_eq_command s) hrange, hmsb]
  rfl

theorem exec_crcByte_of_arg {s : State} {b : Byte} (h : s.arg 0 = b.toNat) :
    exec .crcByte s = .next
      { s with crcAcc := crcByteStep s.crcAcc b, status := statusOk s.status } := by
  have hrange : OperandsInRange .crcByte s :=
    operandsInRange_of_value (by decide) (by decide) rfl h
  rw [exec_of_operandsInRange (exec_crcByte_eq_command s) hrange, argBits_eq_of_arg h]
  rfl

/-! ### Streaming (41_crc16.md R139) -/

@[simp] theorem andThen_next (t : State) (f : State → Host.Outcome State Fault Refusal) :
    andThen (.next t) f = f t := rfl

/-- Commands that always have a next state, in which `CRC_ACC` is a function of the old `CRC_ACC`. -/
def UpdatesCrc (commands : State → Host.Outcome State Fault Refusal)
    (update : BitVec 16 → BitVec 16) : Prop :=
  ∀ s, ∃ t, commands s = .next t ∧ t.crcAcc = update s.crcAcc

theorem UpdatesCrc.nothing : UpdatesCrc .next id := fun s => ⟨s, rfl, rfl⟩

theorem UpdatesCrc.andThen {first second : State → Host.Outcome State Fault Refusal}
    {f g : BitVec 16 → BitVec 16} (hfirst : UpdatesCrc first f) (hsecond : UpdatesCrc second g) :
    UpdatesCrc (fun s => andThen (first s) second) (g ∘ f) := by
  intro s
  obtain ⟨t, ht, htacc⟩ := hfirst s
  obtain ⟨u, hu, huacc⟩ := hsecond t
  exact ⟨u, (congrArg (Machine.andThen · second) ht).trans hu, huacc.trans (congrArg g htacc)⟩

theorem updatesCrc_bit (d : Bool) :
    UpdatesCrc (fun s => exec .crcBit (s.setA 0 ((BitVec.ofBool d).setWidth 64))) (crcBitStep · d) :=
  fun s => ⟨_, exec_crcBit_of_arg (State.arg_setA (by decide) s 0 _), rfl⟩

theorem updatesCrc_byte (b : Byte) :
    UpdatesCrc (fun s => exec .crcByte (s.setA 0 (b.setWidth 64))) (crcByteStep · b) :=
  fun s => ⟨_, exec_crcByte_of_arg (State.arg_setA (by decide) s 0 b), rfl⟩

theorem updatesCrc_streamBits (b : Byte) (n : Nat) : UpdatesCrc (streamBits b n) (crcLowBits b n) := by
  induction n with
  | zero => exact .nothing
  | succ n ih => exact (updatesCrc_bit (b.getLsbD n)).andThen ih

/-- Eight CRC.BIT of a byte's bits do what its CRC.BYTE does. -/
theorem updatesCrc_streamBits_byte (b : Byte) : UpdatesCrc (streamBits b 8) (crcByteStep · b) := by
  simpa only [crcByteStep_eq_crcLowBits] using updatesCrc_streamBits b 8

theorem updatesCrc_streamBytes (B : Span) : UpdatesCrc (streamBytes B) (crcFrom · B) := by
  induction B with
  | nil => exact .nothing
  | cons b B ih => exact (updatesCrc_byte b).andThen ih

theorem updatesCrc_streamSpanBits (B : Span) : UpdatesCrc (streamSpanBits B) (crcFrom · B) := by
  induction B with
  | nil => exact .nothing
  | cons b B ih => exact (updatesCrc_streamBits_byte b).andThen ih

/-! ### What CRC.READ and CRC.SPAN deliver (41_crc16.md R137, R138) -/

/-- The three places where a CRC stands after it is delivered. -/
structure DeliversCrc (c : BitVec 16) (t : State) : Prop where
  result : t.r[0] = c.setWidth 64
  span : t.obuf = crcWire c
  acc : t.crcAcc = c

theorem deliversCrc_crcRead (s : State) :
    ∃ t, exec .crcRead s = .next t ∧ DeliversCrc s.crcAcc t :=
  ⟨_, exec_crcRead s, Vector.getElem_set_self _, rfl, rfl⟩

theorem deliversCrc_crcSpan (s : State) :
    ∃ t, exec .crcSpan s = .next t ∧ DeliversCrc (crc16 s.ibuf) t :=
  ⟨_, exec_crcSpan s, Vector.getElem_set_self _, rfl, rfl⟩

/-- Any commands that fold a span into `CRC_ACC`, between CRC.INIT and CRC.READ, deliver its CRC. -/
theorem deliversCrc_of_streaming {B : Span} {stream : State → Host.Outcome State Fault Refusal}
    (h : UpdatesCrc stream (crcFrom · B)) (s : State) :
    ∃ u, andThen (andThen (exec .crcInit s) stream) (exec .crcRead) = .next u ∧
      DeliversCrc (crc16 B) u := by
  obtain ⟨t, ht, htacc⟩ := h { s with crcAcc := 0xFFFF#16, status := statusOk s.status }
  have hcrc : t.crcAcc = crc16 B := htacc
  obtain ⟨u, hu, hdelivers⟩ := deliversCrc_crcRead t
  refine ⟨u, ?_, hcrc ▸ hdelivers⟩
  rw [exec_crcInit, andThen_next, ht, andThen_next, hu]

/-- The two wire bytes in plain arithmetic, low byte first (41_crc16.md R140). -/
theorem crcWire_eq (c : BitVec 16) :
    crcWire c = [BitVec.ofNat 8 c.toNat, BitVec.ofNat 8 (c.toNat / 256)] := by
  simp only [crcWire, le16, List.cons.injEq, BitVec.toNat_eq, toNat_byte, BitVec.toNat_ofNat, and_true]
  omega

theorem crcWire_injective : Function.Injective crcWire := fun c c' h =>
  BitVec.eq_of_toNat_eq <| by
    rw [← byteOrder_le16.value_bytes c, ← byteOrder_le16.value_bytes c']
    exact congrArg (le16At · 0) h

theorem setWidth_64_injective : Function.Injective (BitVec.setWidth 64 : BitVec 16 → Word) := by
  intro c c' h
  have hback := congrArg (BitVec.setWidth 16) h
  rwa [BitVec.setWidth_setWidth_of_le _ (by decide), BitVec.setWidth_setWidth_of_le _ (by decide),
    BitVec.setWidth_eq, BitVec.setWidth_eq] at hback

/-- Different CRCs differ in each of the three places. -/
theorem DeliversCrc.ne {c c' : BitVec 16} {t t' : State} (h : DeliversCrc c t) (h' : DeliversCrc c' t')
    (hne : c ≠ c') : t.r[0] ≠ t'.r[0] ∧ t.obuf ≠ t'.obuf ∧ t.crcAcc ≠ t'.crcAcc := by
  rw [h.result, h.span, h.acc, h'.result, h'.span, h'.acc]
  exact ⟨setWidth_64_injective.ne hne, crcWire_injective.ne hne, hne⟩

/-! ### The obligations -/

/-- Settles O26: the bits of the step are `crcBitStep_getLsbD`, and eight commands of a byte's bits compose to its
byte step. -/
theorem crcBitResult : Obligations.CrcBitResult := by
  refine fun s => ⟨fun d hd => ⟨crcBitStep s.crcAcc d, ?_, fun k hk => ?_⟩, fun b => ?_,
    raisesFirstRangeError_of_checks (exec_crcBit_eq_command s) (by decide) (by decide)⟩
  · exact exec_crcBit_of_arg (by cases d <;> exact hd)
  · exact crcBitStep_getLsbD s.crcAcc d hk
  · obtain ⟨t, ht, htacc⟩ := updatesCrc_streamBits_byte b s
    obtain ⟨u, hu, huacc⟩ := updatesCrc_byte b s
    exact ⟨t, u, ht, hu, htacc.trans huacc.symm⟩

/-- Settles O27: the byte step is the fold of the bit step over the byte's bits downwards. -/
theorem crcByteResult : Obligations.CrcByteResult := by
  refine fun s => ⟨fun b hb => ?_,
    raisesFirstRangeError_of_checks (exec_crcByte_eq_command s) (by decide) (by decide)⟩
  rw [exec_crcByte_of_arg hb, crcByteStep_eq_crcLowBits]
  rfl

/-- Settles O28: the register's value is the document's (`toNat_crc16`), delivered in plain arithmetic. -/
theorem crcSpanResult : Obligations.CrcSpanResult := by
  intro s
  simp only [← toNat_crc16, exec_crcSpan, crcWire_eq, BitVec.ofNat_toNat, BitVec.setWidth_eq]

/-- Settles O29: no step of the document's algorithm looks above bit 15. -/
theorem truncatedCrcEqualsUnboundedCrc : Obligations.TruncatedCrcEqualsUnboundedCrc :=
  ⟨fun acc B => by rw [← ofNat_foldl_crcDocumentBits, BitVec.toNat_ofNat], toNat_crc16⟩

/-- Settles O30: both streams fold the span into `CRC_ACC`. -/
theorem streamingCrcEqualsSpanCrc : Obligations.StreamingCrcEqualsSpanCrc := by
  intro s B
  obtain ⟨t, ht, hspan⟩ := deliversCrc_crcSpan (s.loadSpan B)
  refine ⟨t, ht, fun stream hstream => ?_⟩
  have hfolds : UpdatesCrc stream (crcFrom · B) := by
    rcases List.mem_pair.1 hstream with rfl | rfl
    · exact updatesCrc_streamBytes B
    · exact updatesCrc_streamSpanBits B
  obtain ⟨u, hu, hstreamed⟩ := deliversCrc_of_streaming hfolds s
  exact ⟨u, hu, hstreamed.result.trans hspan.result.symm, hstreamed.span.trans hspan.span.symm,
    hstreamed.acc.trans hspan.acc.symm⟩

/-- Settles O31: the CRCs differ (`crc16_flipBit_ne`), and each of the three places holds the whole CRC. -/
theorem crcSeesEverySingleBit : Obligations.CrcSeesEverySingleBit := by
  intro s t u k j hk hj ht hu
  obtain ⟨t', ht', hold⟩ := deliversCrc_crcSpan s
  obtain ⟨u', hu', hflipped⟩ := deliversCrc_crcSpan (s.loadSpan (flipBit s.ibuf k j))
  cases ht.symm.trans ht'
  cases hu.symm.trans hu'
  exact hflipped.ne hold (crc16_flipBit_ne s.ibuf hk hj)

/-- Settles O25: the next states of the two commands, the delivered bytes in plain arithmetic. -/
theorem crcInitAndReadResults : Obligations.CrcInitAndReadResults := by
  refine fun s => ⟨exec_crcInit s, ?_⟩
  rw [exec_crcRead, crcWire_eq, ← BitVec.ofNat_toNat]

end Sys2Proof.Machine
end

section
/-! SUPPORT. The whitening generator (42_whitening.md R151 to R155) by the bits of its register: the emitted
sequence, the keystream byte, the right-shifting form and the period. -/

namespace Sys2Proof.Machine

/-! ### One bit-advance (42_whitening.md R151) -/

theorem pn9Step_getLsbD_zero (S : BitVec 9) :
    (pn9Step S).1.getLsbD 0 = (S.getLsbD 8 ^^ S.getLsbD 3) := by
  simp [pn9Step]

theorem pn9Step_getLsbD_succ (S : BitVec 9) {k : Nat} (hk : k < 8) :
    (pn9Step S).1.getLsbD (k + 1) = S.getLsbD k := by
  simp [pn9Step, Nat.succ_lt_succ hk, -BitVec.getLsbD_eq_getElem]

/-! ### Several bit-advances -/

theorem pn9Iterate_eq_iterate (n : Nat) : pn9Iterate n = (fun S => (pn9Step S).1)^[n] := by
  induction n with
  | zero => rfl
  | succ n ih => exact funext fun S => by rw [pn9Iterate, ih, Function.iterate_succ_apply]

theorem pn9Iterate_add (m n : Nat) (S : BitVec 9) :
    pn9Iterate (m + n) S = pn9Iterate n (pn9Iterate m S) := by
  simp only [pn9Iterate_eq_iterate, Nat.add_comm m n, Function.iterate_add_apply]

theorem pn9Iterate_succ (n : Nat) (S : BitVec 9) :
    pn9Iterate (n + 1) S = (pn9Step (pn9Iterate n S)).1 := pn9Iterate_add n 1 S

theorem pn9Iterate_ne_zero {S : BitVec 9} (h : S ≠ 0) (n : Nat) : pn9Iterate n S ≠ 0 := by
  induction n generalizing S with
  | zero => exact h
  | succ n ih => exact ih (pn9Step_ne_zero h)

theorem pn9Iterate_zero_register (n : Nat) : pn9Iterate n 0 = 0 := by
  rw [pn9Iterate_eq_iterate]
  exact Function.iterate_fixed (by decide) n

/-- Each advance moves a bit up by one, until it stands at bit 8. -/
theorem pn9Iterate_getLsbD (S : BitVec 9) {k n : Nat} (h : k + n ≤ 8) :
    (pn9Iterate n S).getLsbD (k + n) = S.getLsbD k := by
  induction n with
  | zero => rfl
  | succ n ih =>
    rw [pn9Iterate_succ, ← Nat.add_assoc, pn9Step_getLsbD_succ _ (by omega), ih (by omega)]

/-! ### The emitted sequence (42_whitening.md R151) -/

theorem pn9Output_add (S : BitVec 9) (m n : Nat) :
    pn9Output S (m + n) = pn9Output (pn9Iterate m S) n := by
  rw [pn9Output, pn9Output, pn9Iterate_add]

/-- The first nine emitted bits are the register's, top bit first. -/
theorem pn9Output_eq_getLsbD (S : BitVec 9) {n : Nat} (hn : n ≤ 8) :
    pn9Output S n = S.getLsbD (8 - n) := by
  have hmoved := pn9Iterate_getLsbD S (k := 8 - n) (n := n) (by omega)
  rwa [Nat.sub_add_cancel hn] at hmoved

/-- The tenth emitted bit is the first feedback bit, whose taps are the first and the sixth emitted. -/
theorem pn9Output_nine (S : BitVec 9) : pn9Output S 9 = (pn9Output S 0 ^^ pn9Output S 5) := by
  have hlater : pn9Output S 9 = pn9Output (pn9Step S).1 8 := pn9Output_add S 1 8
  rw [hlater, pn9Output_eq_getLsbD _ (by decide), pn9Output_eq_getLsbD _ (by decide),
    pn9Output_eq_getLsbD _ (by decide)]
  exact pn9Step_getLsbD_zero S

theorem pn9Output_recurrence (S : BitVec 9) (n : Nat) :
    pn9Output S (n + 9) = (pn9Output S n ^^ pn9Output S (n + 5)) := by
  rw [pn9Output_add, pn9Output_add S n 5, pn9Output_nine, ← pn9Output_add, Nat.add_zero]

/-! ### One keystream byte (42_whitening.md R152) -/

theorem pn9Bits_register (n : Nat) (S : BitVec 9) : (pn9Bits n S).1 = pn9Iterate n S := by
  induction n with
  | zero => rfl
  | succ n ih => rw [pn9Iterate_succ, ← ih, pn9Bits]

theorem pn9Bits_succ_byte (n : Nat) (S : BitVec 9) :
    (pn9Bits (n + 1) S).2
      = (pn9Bits n S).2 ||| ((BitVec.ofBool (pn9Output S n)).setWidth 8 <<< n) := by
  rw [pn9Output, ← pn9Bits_register, pn9Bits]

theorem pn9Bits_getLsbD (n : Nat) (S : BitVec 9) {j : Nat} (hj : j < 8) :
    (pn9Bits n S).2.getLsbD j = (decide (j < n) && pn9Output S j) := by
  induction n with
  | zero => simp [pn9Bits]
  | succ n ih =>
    rw [pn9Bits_succ_byte, BitVec.getLsbD_or, ih, BitVec.getLsbD_shiftLeft, BitVec.getLsbD_setWidth,
      BitVec.getLsbD_ofBool]
    rcases Nat.lt_trichotomy j n with hlt | rfl | hgt
    · simp [hlt, Nat.lt_succ_of_lt hlt]
    · simp [hj]
    · simp [show ¬ j < n by omega, show ¬ j < n + 1 by omega, show j - n ≠ 0 by omega]

theorem pn9ByteStep_register (S : BitVec 9) : (pn9ByteStep S).1 = pn9Iterate 8 S := pn9Bits_register 8 S

/-- The byte's bits are those the register emits, the first at bit 0. -/
theorem pn9ByteStep_getLsbD (S : BitVec 9) {j : Nat} (hj : j < 8) :
    (pn9ByteStep S).2.getLsbD j = pn9Output S j := by
  rw [pn9ByteStep, pn9Bits_getLsbD 8 S hj, decide_eq_true hj, Bool.true_and]

theorem pn9After_eq_pn9Iterate (n : Nat) (S : BitVec 9) : pn9After n S = pn9Iterate (8 * n) S := by
  induction n generalizing S with
  | zero => rfl
  | succ n ih => rw [pn9After, ih, pn9ByteStep_register, Nat.mul_succ, Nat.add_comm, pn9Iterate_add]

/-! ### The right-shifting form (42_whitening.md R154) -/

theorem pn9Mirror_getLsbD (S : BitVec 9) {i : Nat} (hi : i ≤ 8) :
    (pn9Mirror S).getLsbD i = S.getLsbD (8 - i) := by
  rw [pn9Mirror, BitVec.getLsbD_reverse, BitVec.getMsbD_eq_getLsbD,
    decide_eq_true (Nat.lt_succ_of_le hi), Bool.true_and]

theorem mirrorStep_getLsbD_eight (T : BitVec 9) :
    (mirrorStep T).getLsbD 8 = (T.getLsbD 0 ^^ T.getLsbD 5) := by
  simp [mirrorStep]

theorem mirrorStep_getLsbD_of_lt (T : BitVec 9) {i : Nat} (hi : i < 8) :
    (mirrorStep T).getLsbD i = T.getLsbD (i + 1) := by
  simp [mirrorStep, hi, Nat.add_comm]

/-- One advance of one form is one advance of the other: bits that move up in `S` move down in its mirror image,
and the taps 8 and 3 are at bits 0 and 5 there. -/
theorem pn9Mirror_pn9Step (S : BitVec 9) : pn9Mirror (pn9Step S).1 = mirrorStep (pn9Mirror S) := by
  refine BitVec.eq_of_getLsbD_eq fun i hi => ?_
  rcases Nat.lt_or_eq_of_le (Nat.le_of_lt_succ hi) with hlt | rfl
  · rw [mirrorStep_getLsbD_of_lt _ hlt, pn9Mirror_getLsbD _ (by omega), pn9Mirror_getLsbD _ (by omega),
      show 8 - i = 8 - (i + 1) + 1 by omega, pn9Step_getLsbD_succ _ (by omega)]
  · rw [mirrorStep_getLsbD_eight, pn9Mirror_getLsbD _ le_rfl, pn9Mirror_getLsbD _ (by decide),
      pn9Mirror_getLsbD _ (by decide)]
    exact pn9Step_getLsbD_zero S

theorem pn9Mirror_pn9Iterate (n : Nat) (S : BitVec 9) :
    pn9Mirror (pn9Iterate n S) = mirrorIterate n (pn9Mirror S) := by
  induction n generalizing S with
  | zero => rfl
  | succ n ih => rw [pn9Iterate, ih, pn9Mirror_pn9Step, mirrorIterate]

/-- The eight bits that the register emits stand, the first one lowest, in its mirror image. -/
theorem pn9ByteStep_byte (S : BitVec 9) : (pn9ByteStep S).2 = (pn9Mirror S).setWidth 8 := by
  refine BitVec.eq_of_getLsbD_eq fun j hj => ?_
  rw [pn9ByteStep_getLsbD S hj, pn9Output_eq_getLsbD S hj.le, BitVec.getLsbD_setWidth,
    pn9Mirror_getLsbD S hj.le, decide_eq_true hj, Bool.true_and]

theorem pn9KeyFrom_eq_mirrorKeyFrom (n : Nat) (S : BitVec 9) :
    pn9KeyFrom n S = mirrorKeyFrom n (pn9Mirror S) := by
  induction n generalizing S with
  | zero => rfl
  | succ n ih =>
    rw [pn9KeyFrom, mirrorKeyFrom, ih, pn9ByteStep_byte, pn9ByteStep_register, pn9Mirror_pn9Iterate]

theorem pn9Mirror_seed : pn9Mirror Config.pn9Seed = 0x1FF#9 := by decide

/-! ### The period (42_whitening.md R155) -/

/-- The register before every fourth keystream byte from the seed, bytes 0 to 60 (R153 lists the first four). -/
def pn9Milestones : List (BitVec 9) :=
  [0x1FF, 0x16F, 0x0AE, 0x01D, 0x055, 0x16D, 0x1CD, 0x1FA,
    0x019, 0x092, 0x0A2, 0x154, 0x004, 0x0C7, 0x1CF, 0x099]

theorem pn9Milestones_advance :
    ∀ k < 15, pn9Iterate 32 (pn9Milestones.getD k 0) = pn9Milestones.getD (k + 1) 0 := by
  intro k hk
  interval_cases k <;> decide

theorem pn9Iterate_seed_milestone {k : Nat} (hk : k ≤ 15) :
    pn9Iterate (32 * k) 0x1FF#9 = pn9Milestones.getD k 0 := by
  induction k with
  | zero => rfl
  | succ k ih => rw [Nat.mul_succ, pn9Iterate_add, ih (by omega), pn9Milestones_advance k (by omega)]

theorem pn9Iterate_511_seed : pn9Iterate 511 0x1FF#9 = 0x1FF#9 := by
  rw [show 511 = 32 * 15 + 31 by rfl, pn9Iterate_add, pn9Iterate_seed_milestone le_rfl]
  decide

theorem pn9Iterate_73_seed : pn9Iterate 73 0x1FF#9 = 0x179#9 := by
  rw [show 73 = 32 * 2 + 9 by rfl, pn9Iterate_add, pn9Iterate_seed_milestone (by decide)]
  decide

theorem minimalPeriod_seed_dvd_iff (n : Nat) :
    Function.minimalPeriod (fun S => (pn9Step S).1) 0x1FF#9 ∣ n ↔ pn9Iterate n 0x1FF#9 = 0x1FF#9 := by
  rw [pn9Iterate_eq_iterate]
  exact Function.isPeriodicPt_iff_minimalPeriod_dvd.symm

/-- 511 is 7 times 73, and the register is back at the seed after 511 advances but not after 7 or 73. -/
theorem minimalPeriod_seed : Function.minimalPeriod (fun S => (pn9Step S).1) 0x1FF#9 = 511 := by
  have h7 := (minimalPeriod_seed_dvd_iff 7).not.2 (by decide)
  have h73 := (minimalPeriod_seed_dvd_iff 73).not.2 (by rw [pn9Iterate_73_seed]; decide)
  have hmem := Nat.mem_divisors.2 ⟨(minimalPeriod_seed_dvd_iff 511).2 pn9Iterate_511_seed, by decide⟩
  rw [show Nat.divisors 511 = {1, 7, 73, 511} by decide] at hmem
  simp only [Finset.mem_insert, Finset.mem_singleton] at hmem
  rcases hmem with h | h | h | h
  · exact absurd (h ▸ one_dvd 7) h7
  · exact absurd (h ▸ dvd_rfl) h7
  · exact absurd (h ▸ dvd_rfl) h73
  · exact h

theorem pn9Iterate_seed_eq_seed_iff (n : Nat) : pn9Iterate n 0x1FF#9 = 0x1FF#9 ↔ 511 ∣ n := by
  rw [← minimalPeriod_seed_dvd_iff, minimalPeriod_seed]

/-- 8 and 511 have no common factor. -/
theorem pn9After_seed_eq_seed_iff (n : Nat) : pn9After n 0x1FF#9 = 0x1FF#9 ↔ 511 ∣ n := by
  rw [pn9After_eq_pn9Iterate, pn9Iterate_seed_eq_seed_iff]
  exact Nat.Coprime.dvd_mul_left (by decide)

/-- The 511 registers of a period are different and nonzero, and there are no more than 511 nonzero ones. -/
theorem exists_pn9Iterate_seed_eq {S : BitVec 9} (hS : S ≠ 0) : ∃ n < 511, pn9Iterate n 0x1FF#9 = S := by
  have hinj : Set.InjOn (pn9Iterate · 0x1FF#9) (Finset.range 511) := by
    simpa only [pn9Iterate_eq_iterate, minimalPeriod_seed, Finset.coe_range] using
      Function.iterate_injOn_Iio_minimalPeriod (f := fun S => (pn9Step S).1) (x := 0x1FF#9)
  have hmaps : Set.MapsTo (pn9Iterate · 0x1FF#9) (Finset.range 511) (Finset.univ.erase (0 : BitVec 9)) :=
    fun n _ => by simpa using pn9Iterate_ne_zero (S := 0x1FF#9) (by decide) n
  have hcard : (Finset.univ.erase (0 : BitVec 9)).card = 511 := by
    rw [Finset.card_erase_of_mem (Finset.mem_univ _), Finset.card_univ, ← FinEnum.card_eq_fintypeCard,
      FinEnum.card_bitVec]
    rfl
  have hsurj := Finset.surjOn_of_injOn_of_card_le _ hmaps hinj (by rw [hcard, Finset.card_range])
  obtain ⟨n, hn, hreached⟩ := hsurj (show S ∈ _ by simpa using hS)
  exact ⟨n, by simpa using hn, hreached⟩

end Sys2Proof.Machine
end

section
/-! SUPPORT. The commands of the whitening engine (42_whitening.md R156 to R161): the next state of each, and the
statements. -/

namespace Sys2Proof.Machine

/-! ### The next state of each command -/

/-- A bit as a result word (30_encoding.md R73). -/
def bitWord (b : Bool) : Word := (BitVec.ofBool b).setWidth 64

theorem bitWord_eq (b : Bool) : bitWord b = if b then 1 else 0 := by
  cases b <;> rfl

theorem exec_pn9Seed (s : State) :
    exec .pn9Seed s = .next { s with pn9 := 0x1FF#9, status := statusOk s.status } := rfl

theorem exec_pn9Bit (s : State) :
    exec .pn9Bit s = .next
      { s with
        r := s.r.set 0 (bitWord (s.pn9.getLsbD 8))
        pn9 := (pn9Step s.pn9).1
        status := statusOk s.status } := rfl

theorem exec_pn9Byte (s : State) :
    exec .pn9Byte s = .next
      { s with
        r := s.r.set 0 ((pn9ByteStep s.pn9).2.setWidth 64)
        pn9 := pn9Iterate 8 s.pn9
        status := statusOk s.status } := by
  rw [← pn9ByteStep_register]
  rfl

theorem exec_whiten (s : State) :
    exec .whiten s = .next
      { s with
        obuf := whitenSpan s.ibuf
        pn9 := pn9Iterate (8 * s.ibuf.length) 0x1FF#9
        status := statusOk s.status } := by
  have hregister : (whitenFrom Config.pn9Seed s.ibuf).1 = pn9Iterate (8 * s.ibuf.length) 0x1FF#9 := by
    rw [whitenFrom_eq, pn9After_eq_pn9Iterate]
    rfl
  rw [← hregister]
  rfl

/-! ### Several PN9.BIT commands (42_whitening.md R159, R160) -/

theorem drawBits_next (n : Nat) (s : State) (bits : List Word) :
    drawBits (n + 1) s bits = drawBits n
      { s with
        r := s.r.set 0 (bitWord (pn9Output s.pn9 0))
        pn9 := (pn9Step s.pn9).1
        status := statusOk s.status }
      (bits ++ [bitWord (pn9Output s.pn9 0)]) := by
  rw [drawBits, exec_pn9Bit]
  simp only [Vector.getElem_set_self]
  rfl

/-- `n + 1` PN9.BIT commands collect the emitted sequence and leave the last bit in `R[0]`. -/
theorem drawBits_succ (n : Nat) (s : State) (bits : List Word) :
    drawBits (n + 1) s bits =
      (.next
        { s with
          r := s.r.set 0 (bitWord (pn9Output s.pn9 n))
          pn9 := pn9Iterate (n + 1) s.pn9
          status := statusOk s.status },
        bits ++ (List.range (n + 1)).map fun j => bitWord (pn9Output s.pn9 j)) := by
  induction n generalizing s bits with
  | zero => exact drawBits_next 0 s bits
  | succ n ih =>
    have hlater (j : Nat) : pn9Output (pn9Step s.pn9).1 j = pn9Output s.pn9 (j + 1) := rfl
    rw [drawBits_next, ih, List.range_succ_eq_map (n := n + 1), List.map_cons, List.map_map]
    simp only [hlater, statusOk_statusOk, Vector.set_set, List.append_assoc, List.singleton_append]
    rfl

/-- Bits put together with the first one lowest make the number they are the bits of. -/
theorem foldr_bitWord_testBit (n x : Nat) :
    ((List.range n).map fun j => bitWord (x.testBit j)).foldr (fun bit above => bit + 2 * above) 0
      = wordOfNat (x % 2 ^ n) := by
  induction n generalizing x with
  | zero => rw [pow_zero, Nat.mod_one]; rfl
  | succ n ih =>
    have hlow : bitWord (x.testBit 0) = wordOfNat (x % 2) := by
      rw [Nat.testBit_zero]
      rcases Nat.mod_two_eq_zero_or_one x with h | h <;> rw [h] <;> rfl
    have habove := ih (x / 2)
    simp only [← Nat.testBit_succ] at habove
    rw [List.range_succ_eq_map, List.map_cons, List.map_map, List.foldr_cons, hlow,
      Function.comp_def, habove, Nat.pow_succ', Nat.mod_mul]
    simp [wordOfNat, BitVec.ofNat_add, BitVec.ofNat_mul]

theorem foldr_pn9Output (S : BitVec 9) :
    ((List.range 8).map fun j => bitWord (pn9Output S j)).foldr (fun bit above => bit + 2 * above) 0
      = (pn9ByteStep S).2.setWidth 64 := by
  have hbits : ((List.range 8).map fun j => bitWord (pn9Output S j))
      = (List.range 8).map fun j => bitWord ((pn9ByteStep S).2.toNat.testBit j) :=
    List.map_congr_left fun j hj => by
      rw [BitVec.testBit_toNat, pn9ByteStep_getLsbD S (List.mem_range.1 hj)]
  rw [hbits, foldr_bitWord_testBit, Nat.mod_eq_of_lt (BitVec.isLt _), wordOfNat, BitVec.ofNat_toNat]

/-! ### Whitening (42_whitening.md R156, R157) -/

theorem whitenSpan_eq (B : Span) : whitenSpan B = List.zipWith (· ^^^ ·) B (pn9Key B.length) := by
  rw [whitenSpan, whitenFrom_eq, pn9Key]

theorem readByte_whitenSpan {B : Span} {i : Nat} {b k : Byte} (hb : readByte B i = some b)
    (hk : readByte (pn9Key B.length) i = some k) : readByte (whitenSpan B) i = some (b ^^^ k) := by
  rw [readByte] at hb hk
  rw [readByte, whitenSpan_eq, List.getElem?_zipWith, hb, hk]

/-- Each byte meets the same keystream byte twice. -/
theorem whitenFrom_whitenFrom (S : BitVec 9) (B : Span) : (whitenFrom S (whitenFrom S B).2).2 = B := by
  induction B generalizing S with
  | nil => rfl
  | cons b B ih => simp only [whitenFrom, ih, BitVec.xor_assoc, BitVec.xor_self, BitVec.xor_zero]

theorem whitenSpan_whitenSpan (B : Span) : whitenSpan (whitenSpan B) = B :=
  whitenFrom_whitenFrom Config.pn9Seed B

/-! ### No command clears the register (42_whitening.md R155) -/

theorem exec_pn9_ne_zero {i : Instr} {s t : State} (hs : s.pn9 ≠ 0) (h : exec i s = .next t) :
    t.pn9 ≠ 0 := by
  rcases exec_cases h with ⟨-, rfl⟩ | ⟨-, rfl⟩ | ⟨e, -, rfl⟩ | ⟨u, hu, -, rfl⟩
  · exact hs
  · exact (by decide : (0x1FF#9 : BitVec 9) ≠ 0)
  · exact hs
  · exact hu.pn9_ne_zero hs

/-! ### The obligations -/

/-- Settles O37: the seed's least period divides 511 and is neither 1, 7 nor 73, and a period visits every nonzero
register by counting. -/
theorem pn9PeriodIs511 : Obligations.Pn9PeriodIs511 :=
  ⟨pn9Iterate_seed_eq_seed_iff, pn9After_seed_eq_seed_iff, pn9Iterate_ne_zero (by decide),
    fun _ => exists_pn9Iterate_seed_eq, pn9Iterate_zero_register, fun _ _ _ => exec_pn9_ne_zero⟩

/-- Settles O32: the bits of one advance, and the tenth emitted bit from any register. -/
theorem pn9BitResults : Obligations.Pn9BitResults := by
  refine ⟨fun s => ⟨exec_pn9Seed s, (pn9Step s.pn9).1, ?_, pn9Step_getLsbD_zero s.pn9,
    fun k hk => pn9Step_getLsbD_succ s.pn9 hk⟩, pn9Output_recurrence⟩
  rw [exec_pn9Bit, bitWord_eq]

/-- Settles O33: both sides are the first eight bits of the emitted sequence. -/
theorem pn9ByteIsEightBits : Obligations.Pn9ByteIsEightBits := by
  refine fun s => ⟨_, _, drawBits_succ 7 s [], by simp, ?_⟩
  rw [exec_pn9Byte, List.nil_append, foldr_pn9Output, Vector.set_set]

/-- Settles O34: WHITEN's loop is the keystream from the seed laid over the input. -/
theorem whitenResult : Obligations.WhitenResult :=
  fun s => ⟨whitenSpan s.ibuf, exec_whiten s, whitenSpan_length _, pn9KeyFrom_length _ _,
    fun _ _ _ => readByte_whitenSpan⟩

/-- Settles O35: whitening a span twice restores it, whatever `PN9_S` held. -/
theorem whitenIsInvolution : Obligations.WhitenIsInvolution :=
  fun s => ⟨_, _, _, exec_whiten s, exec_xfer _, exec_whiten _, whitenSpan_whitenSpan s.ibuf⟩

/-- Settles O36: reversing the register turns each advance of one form into one of the other. -/
theorem mirroredGeneratorSameKeystream : Obligations.MirroredGeneratorSameKeystream := by
  refine ⟨pn9KeyFrom_eq_mirrorKeyFrom, fun n => ?_, pn9Mirror_pn9Step⟩
  rw [pn9Key, pn9KeyFrom_eq_mirrorKeyFrom, pn9Mirror_seed]

end Sys2Proof.Machine
end

section
/-! SUPPORT. The stand-in code `FEC_TEST` (43_fec.md R180) by the votes of a chunk: what its step returns is fixed
bit by bit by how many of the four bytes have the bit set. -/

namespace Sys2Proof.Machine

/-! ### The chunks of a span (48_link_chain.md R264) -/

theorem chunksOf_append {c : Span} (hc : c.length = Config.fecGroup) (B : Span) :
    chunksOf (c ++ B) = c :: chunksOf B := by
  have hcount : (c ++ B).length / Config.fecGroup = B.length / Config.fecGroup + 1 := by
    rw [List.length_append, hc, Nat.add_div_left _ (by decide)]
  rw [chunksOf, hcount, List.range_succ_eq_map, List.map_cons, List.map_map]
  refine congrArg₂ List.cons ?_ (List.map_congr_left fun k _ => ?_)
  · exact List.take_left' hc
  · have hoff : Config.fecGroup * (k + 1) = c.length + Config.fecGroup * k := by
      rw [hc, Nat.mul_succ, Nat.add_comm]
    rw [Function.comp_apply, memRead, hoff, List.drop_length_add_append, memRead]

/-! ### The majority byte -/

/-- Bits put into a byte one after the other: each is the one that was chosen for its place. -/
theorem foldl_setBit_getLsbD (chosen : Nat → Prop) [DecidablePred chosen] (n : Nat) {j : Nat} (hj : j < 8) :
    ((List.range n).foldl (fun acc i => if chosen i then acc ||| ((1 : Byte) <<< i) else acc) 0).getLsbD j
      = decide (j < n ∧ chosen j) := by
  induction n with
  | zero => simp
  | succ n ih =>
    have hbit : ((1 : Byte) <<< n).getLsbD j = decide (n = j) := by
      rw [show (1 : Byte) <<< n = BitVec.twoPow 8 n from rfl, BitVec.getLsbD_twoPow]
      by_cases h : n = j <;> simp [h, hj]
    have hstep (acc : Byte) : (if chosen n then acc ||| ((1 : Byte) <<< n) else acc).getLsbD j
        = (acc.getLsbD j || decide (j = n ∧ chosen j)) := by
      split
      case isTrue hn =>
        have hiff : n = j ↔ j = n ∧ chosen j := ⟨fun h => ⟨h.symm, h ▸ hn⟩, fun h => h.1.symm⟩
        rw [BitVec.getLsbD_or, hbit, decide_eq_decide.2 hiff]
      case isFalse hn =>
        rw [decide_eq_false fun ⟨h, hj⟩ => hn (h ▸ hj), Bool.or_false]
    rw [List.range_succ, List.foldl_concat, hstep, ih, ← Bool.decide_or, decide_eq_decide,
      Nat.lt_succ_iff_lt_or_eq]
    exact or_and_right.symm

theorem majorityByte_getLsbD (chunk : Span) {j : Nat} (hj : j < 8) :
    (majorityByte chunk).getLsbD j = decide (3 ≤ bitVotes chunk j) := by
  rw [majorityByte, foldl_setBit_getLsbD _ 8 hj]
  simp [hj]

/-! ### The step -/

/-- A bit that is set in exactly two bytes has no majority. -/
theorem fecTestStep_of_evenSplit {chunk : Span} {j : Nat} (hj : j < 8) (h : bitVotes chunk j = 2) :
    fecTestStep chunk = none :=
  if_pos (List.any_eq_true.2 ⟨j, List.mem_range.2 hj, decide_eq_true h⟩)

/-- A chunk stands for a byte where every bit of the byte has the votes of all but at most one byte of the
chunk (43_fec.md R180). -/
def VotesFor (chunk : Span) (b : Byte) : Prop :=
  ∀ j < 8, if b.getLsbD j then 3 ≤ bitVotes chunk j else bitVotes chunk j ≤ 1

theorem fecTestStep_of_votesFor {chunk : Span} {b : Byte} (h : VotesFor chunk b) :
    fecTestStep chunk = some b := by
  have hsplit : ¬ ((List.range 8).any fun j => bitVotes chunk j = 2) = true := fun hany => by
    obtain ⟨j, hj, htwo⟩ := List.any_eq_true.1 hany
    have hvotes := h j (List.mem_range.1 hj)
    rw [of_decide_eq_true htwo] at hvotes
    split at hvotes <;> omega
  have hbyte : majorityByte chunk = b := BitVec.eq_of_getLsbD_eq fun j hj => by
    rw [majorityByte_getLsbD chunk hj]
    have hvotes := h j hj
    split at hvotes
    case isTrue hb => rw [hb, decide_eq_true hvotes]
    case isFalse hb => rw [Bool.eq_false_iff.2 hb, decide_eq_false (by omega)]
  rw [fecTestStep, if_neg hsplit, hbyte]

/-- Three bytes out of four settle every bit, whatever the fourth is. -/
theorem votesFor_set {b c : Byte} {k : Nat} (hk : k < 4) : VotesFor ([b, b, b, b].set k c) b := by
  intro j _
  have hset : bitVotes ([b, b, b, b].set k c) j
      = (if b.getLsbD j then 4 else 0) - (if b.getLsbD j then 1 else 0)
        + (if c.getLsbD j then 1 else 0) := by
    rw [bitVotes, show [b, b, b, b] = List.replicate 4 b from rfl,
      List.countP_set (by simpa using hk), List.countP_replicate, List.getElem_replicate]
  rw [hset]
  cases b.getLsbD j with
  | true => simp only [if_true]; omega
  | false => simp only [Bool.false_eq_true, if_false]; split <;> decide

theorem votesFor_clean (b : Byte) : VotesFor [b, b, b, b] b :=
  votesFor_set (k := 0) (c := b) (by decide)

/-- `FEC_TEST` never changes its history. -/
theorem fecTest_step (h : FecHist) (chunk : Span) :
    fecTest.step h chunk = (fecTestStep chunk).map fun b => (h, oneByteSpan b) := rfl

theorem fecTest_step_of_votesFor (h : FecHist) {chunk : Span} {b : Byte} (hb : VotesFor chunk b) :
    fecTest.step h chunk = some (h, oneByteSpan b) := by
  rw [fecTest_step, fecTestStep_of_votesFor hb, Option.map_some]

theorem fecTest_step_of_evenSplit (h : FecHist) {chunk : Span} {j : Nat} (hj : j < 8)
    (hsplit : bitVotes chunk j = 2) : fecTest.step h chunk = none := by
  rw [fecTest_step, fecTestStep_of_evenSplit hj hsplit, Option.map_none]

/-! ### A clean encoding, chunk by chunk -/

theorem submitSpans_fecTestEncode (h : FecHist) (p : Span) :
    submitSpans fecTest h (chunksOf (fecTestEncode p)) = some (p.map ([·])) := by
  induction p with
  | nil => rfl
  | cons b p ih =>
    have hchunks : chunksOf (fecTestEncode (b :: p)) = [b, b, b, b] :: chunksOf (fecTestEncode p) :=
      chunksOf_append (c := [b, b, b, b]) rfl (fecTestEncode p)
    rw [hchunks, submitSpans, fecTest_step_of_votesFor h (votesFor_clean b)]
    simp only [ih, oneByteSpan, Option.map_some, List.map_cons]

theorem soundOnCleanInput_fecTest : SoundOnCleanInput fecTest := fun p =>
  ⟨p.map ([·]), submitSpans_fecTestEncode _ p, by rw [← List.flatMap_def, List.flatMap_singleton']⟩

theorem zeroLatency_fecTest : ZeroLatency fecTest := by
  intro p outs houts out hout
  obtain rfl := Option.some.inj ((submitSpans_fecTestEncode _ p).symm.trans houts)
  obtain ⟨b, -, rfl⟩ := List.mem_map.1 hout
  rfl

/-! ### The obligation -/

/-- Settles O42: three of four equal bytes outvote the fourth, and an even split has no majority. -/
theorem fecTestObeysTheLaws : Obligations.FecTestObeysTheLaws :=
  ⟨soundOnCleanInput_fecTest, zeroLatency_fecTest,
    fun h b _ _ hk => ⟨oneByteSpan b, fecTest_step_of_votesFor h (votesFor_set hk), rfl⟩,
    fun h _ _ => fecTest_step_of_evenSplit h⟩

end Sys2Proof.Machine
end

section
/-! SUPPORT. The commands of the FEC codec (43_fec.md R173 to R177): the next state of each, the transitions of
the decoder's phase, and the statements. -/

namespace Sys2Proof.Machine

/-! ### FEC.ENCODE (43_fec.md R173) -/

theorem exec_fecEncode_of_fits {s : State} (h : Config.fecGroup * s.ibuf.length ≤ Config.bufCap) :
    exec .fecEncode s = .next
      { s with
        obuf := (Config.fecCode.encode s.ibuf).toList
        status := statusOk s.status } :=
  congrArg Host.Outcome.next
    (State.command_of_holds s _ (List.forall_mem_singleton.2 (decide_eq_true h)))

theorem exec_fecEncode_of_not_fits {s : State} (h : Config.bufCap < Config.fecGroup * s.ibuf.length) :
    exec .fecEncode s = .next (s.raise ⟨.length, .outputSpan⟩) :=
  congrArg Host.Outcome.next
    (State.command_of_error s _ (firstError_cons_of_fails _ (decide_eq_false (Nat.not_le.2 h))))

/-! ### FEC.NEW and FEC.PRIME (43_fec.md R175, R176) -/

theorem exec_fecNew (s : State) :
    exec .fecNew s = .next { s with fecPhase := .unprimed, status := statusOk s.status } := rfl

theorem exec_fecPrime_of_unprimed {s : State} (h : s.fecPhase = .unprimed) :
    exec .fecPrime s = .next
      { s with
        fecHist := Config.fecCode.hist0
        fecPhase := .primedEmpty
        obuf := []
        status := statusOk s.status } :=
  congrArg Host.Outcome.next
    (State.command_of_holds s _ (List.forall_mem_singleton.2 (decide_eq_true h)))

theorem exec_fecPrime_of_primed {s : State} (h : s.fecPhase ≠ .unprimed) :
    exec .fecPrime s = .next (s.raise ⟨.desync, .sequence⟩) :=
  congrArg Host.Outcome.next
    (State.command_of_error s _ (firstError_cons_of_fails _ (decide_eq_false h)))

/-! ### FEC.SUBMIT (43_fec.md R177) -/

section
variable (code : FecCode) {s : State}

theorem fecSubmitWith_of_unprimed (h : s.fecPhase = .unprimed) :
    fecSubmitWith code s = s.raise ⟨.desync, .sequence⟩ := by
  simp [fecSubmitWith, firstError, h, State.finish]

theorem fecSubmitWith_of_ne_size (hphase : s.fecPhase ≠ .unprimed)
    (hlen : s.ibuf.length ≠ Config.fecGroup) : fecSubmitWith code s = s.raise ⟨.desync, .chunk⟩ := by
  simp [fecSubmitWith, firstError, hphase, hlen, State.ilen, State.finish]

theorem fecSubmitWith_of_rejected (hphase : s.fecPhase ≠ .unprimed)
    (hlen : s.ibuf.length = Config.fecGroup) (hstep : code.step s.fecHist s.ibuf = none) :
    fecSubmitWith code s = s.raise ⟨.desync, .chunk⟩ := by
  simp [fecSubmitWith, firstError, hphase, hlen, hstep, State.ilen, State.finish]

theorem fecSubmitWith_of_accepted (hphase : s.fecPhase ≠ .unprimed)
    (hlen : s.ibuf.length = Config.fecGroup) {h : FecHist}
    {out : { out : Span // out.length ≤ Config.bufCap }}
    (hstep : code.step s.fecHist s.ibuf = some (h, out)) :
    fecSubmitWith code s =
      { s with
        fecHist := h
        fecPhase := .accepting
        obuf := out.val
        status := statusOk s.status } := by
  simp [fecSubmitWith, firstError, hphase, hlen, hstep, State.ilen, State.finish, State.succeed,
    State.memWrite]

end

/-! ### The decoder's phase (43_fec.md R174) -/

/-- Only the four commands that write `FEC_PHASE` can change it. -/
theorem mem_phaseWriters_of_fecPhase_ne {i : Instr} {s t : State} (h : exec i s = .next t)
    (hne : t.fecPhase ≠ s.fecPhase) : i ∈ phaseWriters := by
  rcases exec_cases h with ⟨-, rfl⟩ | ⟨rfl, -⟩ | ⟨e, -, rfl⟩ | ⟨u, hu, -, rfl⟩
  · exact absurd rfl hne
  · decide
  · exact absurd rfl hne
  · by_contra hi
    exact hne (hu.fecPhase hi)

theorem fecPrime_phases {s t : State} (h : exec .fecPrime s = .next t) (hne : t.fecPhase ≠ s.fecPhase) :
    s.fecPhase = .unprimed ∧ t.fecPhase = .primedEmpty := by
  by_cases hphase : s.fecPhase = .unprimed
  · obtain rfl := Host.Outcome.next.inj ((exec_fecPrime_of_unprimed hphase).symm.trans h)
    exact ⟨hphase, rfl⟩
  · obtain rfl := Host.Outcome.next.inj ((exec_fecPrime_of_primed hphase).symm.trans h)
    exact absurd rfl hne

theorem fecSubmit_phases {s t : State} (h : exec .fecSubmit s = .next t)
    (hne : t.fecPhase ≠ s.fecPhase) : s.fecPhase = .primedEmpty ∧ t.fecPhase = .accepting := by
  obtain rfl : fecSubmitWith Config.fecCode s = t := Host.Outcome.next.inj h
  rcases fecSubmitWith_cases Config.fecCode s with ⟨e, -, heq⟩ | ⟨hist, out, hphase, -, -, heq⟩
  · exact absurd (congrArg State.fecPhase (heq s.status)) hne
  · have haccepting : (fecSubmitWith Config.fecCode s).fecPhase = .accepting :=
      congrArg State.fecPhase (heq s.status)
    refine ⟨?_, haccepting⟩
    cases hs : s.fecPhase with
    | unprimed => exact absurd hs hphase
    | primedEmpty => rfl
    | accepting => exact absurd (haccepting.trans hs.symm) hne

/-! ### The obligations -/

/-- Settles O41: the writers of `FEC_PHASE` one by one. -/
theorem fecPhaseTransitions : Obligations.FecPhaseTransitions := by
  intro i s t h hne
  have hi := mem_phaseWriters_of_fecPhase_ne h hne
  simp only [phaseWriters, List.mem_cons, List.not_mem_nil, or_false] at hi
  rcases hi with rfl | rfl | rfl | rfl
  · cases h; exact .inl ⟨.inr rfl, rfl⟩
  · cases h; exact .inl ⟨.inl rfl, rfl⟩
  · exact .inr (.inl ⟨rfl, fecPrime_phases h hne⟩)
  · exact .inr (.inr ⟨rfl, fecSubmit_phases h hne⟩)

/-- Settles O38: one check decides; the length is in the code's type (43_fec.md R172, L1). -/
theorem fecEncodeResult : Obligations.FecEncodeResult :=
  fun _ => ⟨fun h => ⟨exec_fecEncode_of_fits h, Vector.length_toList⟩, exec_fecEncode_of_not_fits⟩

/-- Settles O39: FEC.PRIME's one check is that the decoder is unprimed, and FEC.NEW has none. -/
theorem fecNewAndPrimeResults : Obligations.FecNewAndPrimeResults :=
  fun s => ⟨exec_fecNew s, exec_fecPrime_of_unprimed, exec_fecPrime_of_primed⟩

/-- Settles O40: the two checks in order, then the code's answer. -/
theorem fecSubmitResult : Obligations.FecSubmitResult :=
  fun _ => ⟨rfl, fun h => congrArg Host.Outcome.next (fecSubmitWith_of_unprimed _ h),
    fun hphase hlen => congrArg Host.Outcome.next (fecSubmitWith_of_ne_size _ hphase hlen),
    fun hphase hlen code => ⟨fun _ _ hstep => fecSubmitWith_of_accepted code hphase hlen hstep,
      fun hstep => fecSubmitWith_of_rejected code hphase hlen hstep⟩⟩

end Sys2Proof.Machine
end

section
/-! SUPPORT. The addressed-transport header (44_addressed_header.md R190 to R194): ATH.PACK as BF.PACK with flags
0, ATH.UNPACK as the five fields of four bytes, and the two as each other's inverse on the first three bytes. -/

namespace Sys2Proof.Machine

/-! ### The operands, with flags 0 (44_addressed_header.md R192) -/

/-- The operands from which BF.PACK makes the word that ATH.PACK writes. -/
def State.withoutFlags (s : State) : State := s.setA 5 0

/-- The five fields that ATH.PACK reads, as unsigned values. -/
def headerOperands (s : State) : List Nat := (packOperands s).take 5

theorem State.withoutFlags_a_of_ne (s : State) {i : Fin 8} (hi : i ≠ 5) :
    s.withoutFlags.a[i] = s.a[i] := by
  have hne : 5 ≠ i.val := fun h => hi (Fin.ext h.symm)
  simp [State.withoutFlags, hne]

theorem State.withoutFlags_a_flags (s : State) : s.withoutFlags.a[(5 : Fin 8)] = 0 := by
  simp [State.withoutFlags]

theorem packOperands_withoutFlags (s : State) :
    packOperands s.withoutFlags = headerOperands s ++ [0] := by
  simp [packOperands, headerOperands, State.withoutFlags]

theorem getElem_headerOperands (s : State) {k : Fin 8} (hk : k.val < 5) :
    ((headerOperands s).map wordOfNat)[k.val]'hk = s.a[k] := by
  simp only [headerOperands, List.map_take, List.getElem_take]
  exact getElem_packOperands s (hk.trans (by decide))

/-- BF.PACK checks the rows of ATH.PACK and then flags, whose row a 0 passes. -/
theorem operandsInRange_withoutFlags_iff (s : State) :
    OperandsInRange .bfPack s.withoutFlags ↔ OperandsInRange .athPack s := by
  have htable : rangeTable .bfPack = rangeTable .athPack ++ [⟨5, 0, 255, .flags⟩] := rfl
  have hreg : ∀ f ∈ rangeTable .athPack, f.reg ≠ 5 := by decide
  have hflags : FieldRange.holds ⟨5, 0, 255, .flags⟩ s.withoutFlags := by
    simp only [FieldRange.holds, State.arg, State.withoutFlags_a_flags]
    decide
  rw [operandsInRange_iff (by decide) (by decide), operandsInRange_iff (by decide) (by decide), htable,
    List.forall_mem_append, List.forall_mem_singleton, and_iff_left hflags]
  refine forall₂_congr fun f hf => ?_
  simp only [FieldRange.holds, State.arg, State.withoutFlags_a_of_ne s (hreg f hf)]

theorem operandsInRange_athPack_iff (s : State) :
    OperandsInRange .athPack s ↔ FieldsFit Config.bfLayout (headerOperands s ++ [0]) := by
  rw [← operandsInRange_withoutFlags_iff, operandsInRange_bfPack_iff, packOperands_withoutFlags]

theorem arg_headerRegister {s : State} (h : OperandsInRange .athPack s) :
    ∀ i ∈ packRegisters.take 5, s.arg i = (s.a[i]).toNat := by
  have hrow : ∀ i ∈ packRegisters.take 5, i ∈ packRegisters ∧ i ≠ 5 := by decide
  intro i hi
  obtain ⟨hpack, hne⟩ := hrow i hi
  simpa only [State.arg, State.withoutFlags_a_of_ne s hne] using
    arg_packRegister ((operandsInRange_withoutFlags_iff s).2 h) i hpack

/-! ### Four bytes and their fields (44_addressed_header.md R190, R193) -/

/-- The five fields that stand in the first three bytes of a header. -/
def headerFields (b₀ b₁ b₂ : Byte) : List Nat :=
  [b₀.toNat / 64, b₀.toNat / 2 % 32, b₀.toNat % 2 * 16 + b₁.toNat / 16,
    b₁.toNat % 16 * 4 + b₂.toNat / 64, b₂.toNat % 64]

theorem takeFields_be32At (b₀ b₁ b₂ b₃ : Byte) :
    takeFields Config.bfLayout (be32At [b₀, b₁, b₂, b₃] 0) = headerFields b₀ b₁ b₂ ++ [b₃.toNat] := by
  simp only [be32At_four, takeFields, Config.bfLayout, List.sum_cons, List.sum_nil, headerFields,
    List.cons_append, List.nil_append, List.cons.injEq, and_true]
  omega

theorem fieldsFit_headerFields (b₀ b₁ b₂ : Byte) :
    FieldsFit Config.bfLayout (headerFields b₀ b₁ b₂ ++ [0]) :=
  takeFields_be32At b₀ b₁ b₂ 0 ▸ fieldsFit_takeFields ..

/-- The fields of a header's first three bytes, placed with flags 0, give these bytes and a 0. -/
theorem be32_placeFields_headerFields (b₀ b₁ b₂ : Byte) :
    be32 (BitVec.ofNat 32 (placeFields Config.bfLayout (headerFields b₀ b₁ b₂ ++ [0])))
      = [b₀, b₁, b₂, 0] := by
  have hfields : takeFields Config.bfLayout (be32At [b₀, b₁, b₂, 0] 0) = headerFields b₀ b₁ b₂ ++ [0] :=
    takeFields_be32At b₀ b₁ b₂ 0
  rw [← hfields, placeFields_takeFields, bfLayout_sum,
    Nat.mod_eq_of_lt (byteOrder_be32.value_lt rfl), byteOrder_be32.bytes_value _ rfl]

/-- The bytes of R192 hold the fields they are made of. -/
theorem headerFields_of_fieldsFit {a b c d e : Nat} (hfit : FieldsFit Config.bfLayout [a, b, c, d, e, 0]) :
    headerFields (BitVec.ofNat 8 (a * 64 + b * 2 + c / 16)) (BitVec.ofNat 8 (c % 16 * 16 + d / 4))
      (BitVec.ofNat 8 (d % 4 * 64 + e)) = [a, b, c, d, e] := by
  simp only [FieldsFit, Config.bfLayout, List.forall₂_cons] at hfit
  obtain ⟨ha, hb, hc, hd, he, -⟩ := hfit
  simp only [headerFields, BitVec.toNat_ofNat, List.cons.injEq, and_true]
  omega

/-- The operands of ATH.PACK are the fields of the bytes that R192 gives. -/
theorem headerOperands_eq_headerFields {s : State} (h : OperandsInRange .athPack s) :
    headerOperands s = headerFields (BitVec.ofInt 8 (s.arg 0 * 64 + s.arg 1 * 2 + s.arg 2 / 16))
      (BitVec.ofInt 8 (s.arg 2 % 16 * 16 + s.arg 3 / 4)) (BitVec.ofInt 8 (s.arg 3 % 4 * 64 + s.arg 4)) := by
  have hfit := (operandsInRange_athPack_iff s).1 h
  have harg := arg_headerRegister h
  rw [harg 0 (by decide), harg 1 (by decide), harg 2 (by decide), harg 3 (by decide), harg 4 (by decide)]
  exact (headerFields_of_fieldsFit hfit).symm

/-! ### ATH.PACK (44_addressed_header.md R192) -/

/-- The words that ATH.PACK places are those of BF.PACK with flags 0. -/
theorem toNat_headerWords {s : State} (h : OperandsInRange .athPack s) :
    (addressFields s ++ [0]).map BitVec.toNat = headerOperands s ++ [0] := by
  have hwords := toNat_packWords
    ((operandsInRange_bfPack_iff _).1 ((operandsInRange_withoutFlags_iff s).2 h))
  rw [packOperands_withoutFlags] at hwords
  rw [← hwords]
  simp [addressFields, State.argBits, State.withoutFlags]

theorem exec_athPack_eq_command (s : State) :
    exec .athPack s = .next (s.command ((rangeTable .athPack).map (·.check s)) fun s =>
      s.memWrite (be32 (bfPack 32 Config.bfLayout (addressFields s ++ [0])))) := rfl

theorem exec_athPack_of_inRange {s : State} (h : OperandsInRange .athPack s) :
    exec .athPack s = .next (s.memWrite
      (be32 (BitVec.ofNat 32 (placeFields Config.bfLayout (headerOperands s ++ [0]))))).succeed := by
  have hwords := toNat_headerWords h
  have hfit := (operandsInRange_athPack_iff s).1 h
  rw [exec_of_operandsInRange (exec_athPack_eq_command s) h, ← hwords,
    ← toNat_bfPack bfLayout_sum (hwords ▸ hfit), BitVec.ofNat_toNat, BitVec.setWidth_eq]

/-- ATH.PACK of the fields of three bytes writes these bytes and a 0. -/
theorem exec_athPack_of_fields {s : State} {b₀ b₁ b₂ : Byte}
    (h : headerOperands s = headerFields b₀ b₁ b₂) :
    exec .athPack s = .next (s.memWrite [b₀, b₁, b₂, 0]).succeed := by
  have hrange : OperandsInRange .athPack s := by
    rw [operandsInRange_athPack_iff, h]
    exact fieldsFit_headerFields b₀ b₁ b₂
  rw [exec_athPack_of_inRange hrange, h, be32_placeFields_headerFields]

/-! ### ATH.UNPACK (44_addressed_header.md R193) -/

/-- A command whose first check is the size of the input span, on a span of another size. -/
theorem State.command_of_ne_size {s : State} {n : Nat} (h : s.ibuf.length ≠ n) (checks : List Check)
    (effect : State → State) :
    s.command (sizeIs s.ibuf n :: checks) effect = s.raise ⟨.length, .inputSpan⟩ := by
  have hfails : (sizeIs s.ibuf n).holds = false :=
    Bool.eq_false_iff.2 fun hsize => h ((sizeIs_holds_iff _ _).1 hsize)
  rw [State.command_of_error _ _ (firstError_cons_of_fails _ hfails), sizeIs_error]

theorem map_setWidth_bfUnpack {W : Nat} {widths : List Nat} (hsum : widths.sum = W) (word : BitVec W) :
    (bfUnpack W widths word).map (·.setWidth 64) = (takeFields widths word.toNat).map wordOfNat := by
  rw [← toNat_bfUnpack hsum, List.map_map]
  exact List.map_congr_left fun v _ => (BitVec.ofNat_toNat 64 v).symm

/-- ATH.UNPACK's results, written out register by register. -/
theorem writeFrom_zero_five (v₀ v₁ v₂ v₃ v₄ : Word) (r : Vector Word 8) :
    writeFrom 0 [v₀, v₁, v₂, v₃, v₄] r = ((((r.set 0 v₀).set 1 v₁).set 2 v₂).set 3 v₃).set 4 v₄ := by
  simp only [writeFrom]
  repeat rw [setIfInBounds_eq_set _ (by decide)]

theorem exec_athUnpack_of_bytes {s : State} {b₀ b₁ b₂ b₃ : Byte} (h : s.ibuf = [b₀, b₁, b₂, b₃]) :
    exec .athUnpack s =
      .next (s.setResults 0 ((headerFields b₀ b₁ b₂).map wordOfNat)).succeed := by
  have hword : (BitVec.ofNat 32 (be32At [b₀, b₁, b₂, b₃] 0)).toNat = be32At [b₀, b₁, b₂, b₃] 0 :=
    BitVec.toNat_ofNat _ _ |>.trans (Nat.mod_eq_of_lt (byteOrder_be32.value_lt rfl))
  have hsize : ∀ c ∈ [sizeIs s.ibuf Config.athLen], c.holds = true := by
    rw [List.forall_mem_singleton, sizeIs_holds_iff, h]
    rfl
  have hexec : exec .athUnpack s = execAthUnpack s := rfl
  rw [hexec, execAthUnpack, State.command_of_holds _ _ hsize, List.map_take,
    map_setWidth_bfUnpack bfLayout_sum, h, hword, takeFields_be32At]
  rfl

theorem exec_athUnpack_of_ne_size {s : State} (h : s.ibuf.length ≠ 4) :
    exec .athUnpack s = .next (s.raise ⟨.length, .inputSpan⟩) :=
  congrArg _ (State.command_of_ne_size h _ _)

/-- The fields that ATH.UNPACK delivered are the operands of the ATH.PACK that takes its results. -/
theorem headerOperands_of_results {s : State} {b₀ b₁ b₂ : Byte} {r : Vector Word 8}
    (ha : s.a = writeFrom 0 ((headerFields b₀ b₁ b₂).map wordOfNat) r) :
    headerOperands s = headerFields b₀ b₁ b₂ := by
  have hpack : s.withoutFlags.a = writeFrom 0 ((headerFields b₀ b₁ b₂ ++ [0]).map wordOfNat) r := by
    rw [State.withoutFlags, State.setA_a, ha]
    simp only [headerFields, List.cons_append, List.nil_append, List.map, writeFrom_zero_five,
      writeFrom_zero_six]
    rfl
  have hoperands := packOperands_of_fields hpack (fieldsFit_headerFields b₀ b₁ b₂)
  rw [packOperands_withoutFlags] at hoperands
  exact List.append_cancel_right hoperands

/-! ### The statements -/

/-- Settles O43: the operands are the fields of the bytes written, and the checks are the command's rows of the
table. -/
theorem athPackResult : Obligations.AthPackResult := fun s =>
  ⟨fun h => exec_athPack_of_fields (headerOperands_eq_headerFields h),
    raisesFirstRangeError_of_checks (exec_athPack_eq_command s) (by decide) (by decide)⟩

/-- Settles O44: the quotients and remainders are the fields of the word that the four bytes make. -/
theorem athUnpackResult : Obligations.AthUnpackResult := by
  refine fun s => ⟨fun b₀ b₁ b₂ b₃ h => ?_, exec_athUnpack_of_ne_size⟩
  rw [exec_athUnpack_of_bytes h]
  simp only [State.setResults, headerFields, List.map, writeFrom_zero_five, State.succeed, wordOfNat]

/-- Settles O45: what ATH.PACK wrote has the operands as its fields, and what ATH.UNPACK delivered are the
fields of the first three bytes. -/
theorem addressedHeaderRoundTrip : Obligations.AddressedHeaderRoundTrip := by
  refine fun s => ⟨fun h => ?_, fun b₀ b₁ b₂ b₃ h => ?_⟩
  · have hfields := headerOperands_eq_headerFields h
    refine ⟨_, _, _, exec_athPack_of_fields hfields, exec_xfer _, exec_athUnpack_of_bytes rfl,
      fun k hk => ?_⟩
    rw [← hfields, State.succeed_r, State.setResults_r, Fin.getElem_fin, writeFrom_getElem,
      dif_pos ⟨Nat.zero_le _, hk⟩]
    exact getElem_headerOperands s hk
  · exact ⟨_, _, exec_athUnpack_of_bytes h,
      exec_athPack_of_fields (headerOperands_of_results (r := s.r) rfl), rfl⟩

end Sys2Proof.Machine
end

section
/-! SUPPORT. The client packet (45_client_packet.md R200 to R206): the header's bytes and its fields as each other's
inverse, and the four commands that check and copy them. -/

namespace Sys2Proof.Machine

/-! ### Checks in order -/

section
variable {s : State} {c : Check} {checks : List Check} {effect : State → State}

theorem State.command_cons_of_holds (h : c.holds = true) :
    s.command (c :: checks) effect = s.command checks effect := by
  rw [State.command, firstError_cons_of_holds _ h, State.command]

theorem State.command_cons_of_fails (h : ¬ c.holds = true) :
    s.command (c :: checks) effect = s.raise c.error :=
  State.command_of_error _ _ (firstError_cons_of_fails _ (Bool.eq_false_iff.2 h))

/-- A command that leaves `STATUS` at OK had no error to raise. -/
theorem State.checks_hold_of_success (hok : statusKind (s.command checks effect).status = 0) :
    ∀ c ∈ checks, c.holds = true := by
  rcases s.command_cases checks effect with ⟨e, -, hraise⟩ | ⟨hall, -⟩
  · rw [hraise, State.raise_status, statusKind_statusRaise] at hok
    exact absurd hok (kindCode_ne_zero _)
  · exact hall

end

/-! ### Commands that check a computed length before their operands (60_exceptions.md R277) -/

section
variable {i : Instr} {s : State} {n : Int} {lo hi : Int} {effect : State → State}
  (exec_eq : exec i s = .next
    (s.command (rangeCheck n lo hi .length :: (rangeTable i).map (·.check s)) effect))
  (fits_iff : ComputedLengthFits i s ↔ lo ≤ n ∧ n ≤ hi)
include exec_eq fits_iff

theorem exec_of_operandsInRange_of_length (h : OperandsInRange i s) :
    exec i s = .next (effect s).succeed := by
  obtain ⟨hfits, hrows⟩ := h
  rw [exec_eq, State.command_cons_of_holds ((rangeCheck_holds_iff ..).2 (fits_iff.1 hfits)),
    State.command_of_holds _ _ ((checks_hold_iff _ s).2 hrows)]

theorem raisesFirstRangeError_of_length : RaisesFirstRangeError i s := by
  refine ⟨fun hlong => ?_, fun passed f rest hfits htable hpassed hf => ?_⟩
  · rw [fits_iff, ← rangeCheck_holds_iff n lo hi .length] at hlong
    rw [exec_eq, State.command_cons_of_fails hlong]
    rfl
  · rw [exec_eq, State.command_cons_of_holds ((rangeCheck_holds_iff ..).2 (fits_iff.1 hfits)), htable,
      State.command_of_error _ _ (firstError_checks hpassed hf)]
    rfl

end

/-! ### The length field (45_client_packet.md R200, R201) -/

theorem clientLengthCheck_holds_iff (n : Nat) :
    (clientLengthCheck n).holds = true ↔ 6 ≤ n ∧ n ≤ 251 := by
  rw [clientLengthCheck, rangeCheck_holds_iff]
  exact and_congr Nat.cast_le Nat.cast_le

theorem clientLength_eq (n : Nat) : clientLength n = n + 6 := by
  rw [clientLength, Config.cpHdrLen]
  omega

theorem computedLengthFits_cpPack_iff (s : State) :
    ComputedLengthFits .cpPack s ↔ s.ibuf.length + 6 ≤ 251 := by
  simp [ComputedLengthFits, Nat.add_comm]

/-! ### The fields in the argument registers (45_client_packet.md R200, R202, R204) -/

/-- The four fields after the length byte are in range. -/
abbrev ClientFieldsInRange (s : State) : Prop := ∀ f ∈ rangeTable .cpPack, f.holds s

theorem clientFieldsInRange_iff (s : State) :
    ClientFieldsInRange s ↔ (s.a[(1 : Fin 8)]).toNat < 2 ^ 16 ∧ (s.a[(2 : Fin 8)]).toNat < 2 ^ 16 ∧
      (s.a[(3 : Fin 8)]).toNat < 2 ^ 8 ∧ (s.a[(4 : Fin 8)]).toNat < 2 ^ 8 := by
  simp only [← State.arg_inRange_iff _ (by decide : 16 < 64), ← State.arg_inRange_iff _ (by decide : 8 < 64)]
  simp [ClientFieldsInRange, rangeTable]

theorem le16_argBits {s : State} {i : Fin 8} (h : 0 ≤ s.arg i) :
    le16 (s.argBits 16 i) = [BitVec.ofInt 8 (s.arg i), BitVec.ofInt 8 (s.arg i / 256)] := by
  have hlow := extractLsb'_argBits h (w := 16) (j := 0) (by decide)
  have hhigh := extractLsb'_argBits h (w := 16) (j := 8) (by decide)
  rw [pow_zero, Int.ediv_one] at hlow
  rw [le16, hlow, hhigh]
  rfl

/-- The header's bytes in plain arithmetic on the operands. -/
theorem clientHeader_eq {s : State} (h : ClientFieldsInRange s) (b : Byte) :
    clientHeader s b = [b, BitVec.ofInt 8 (s.arg 1), BitVec.ofInt 8 (s.arg 1 / 256),
      BitVec.ofInt 8 (s.arg 2), BitVec.ofInt 8 (s.arg 2 / 256), BitVec.ofInt 8 (s.arg 3),
      BitVec.ofInt 8 (s.arg 4)] := by
  simp only [ClientFieldsInRange, rangeTable, List.forall_mem_cons, FieldRange.holds] at h
  obtain ⟨⟨h₁, -⟩, ⟨h₂, -⟩, ⟨h₃, -⟩, ⟨h₄, -⟩, -⟩ := h
  rw [clientHeader, le16_argBits h₁, le16_argBits h₂, argBits_eight h₃, argBits_eight h₄]
  rfl

/-! ### Bytes and fields (45_client_packet.md R200, R206) -/

/-- The fields of a frame by its first seven bytes. -/
theorem clientFields_bytes (b₀ b₁ b₂ b₃ b₄ b₅ b₆ : Byte) (p : Span) :
    clientFields ([b₀, b₁, b₂, b₃, b₄, b₅, b₆] ++ p) =
      [wordOfNat b₀.toNat, wordOfNat (b₁.toNat + 256 * b₂.toNat),
        wordOfNat (b₃.toNat + 256 * b₄.toNat), wordOfNat b₅.toNat, wordOfNat b₆.toNat] := rfl

/-- The fields of a header are the operands it was made of. -/
theorem clientFields_clientHeader {s : State} (h : ClientFieldsInRange s) (b : Byte) (p : Span) :
    clientFields (clientHeader s b ++ p) =
      [wordOfNat b.toNat, s.a[(1 : Fin 8)], s.a[(2 : Fin 8)], s.a[(3 : Fin 8)], s.a[(4 : Fin 8)]] := by
  obtain ⟨h₁, h₂, h₃, h₄⟩ := (clientFieldsInRange_iff s).1 h
  calc clientFields (clientHeader s b ++ p)
    _ = [wordOfNat b.toNat, wordOfNat (le16At (le16 (s.argBits 16 1)) 0),
          wordOfNat (le16At (le16 (s.argBits 16 2)) 0), wordOfNat (s.argBits 8 3).toNat,
          wordOfNat (s.argBits 8 4).toNat] := rfl
    _ = _ := by
      rw [byteOrder_le16.value_bytes, byteOrder_le16.value_bytes, State.toNat_argBits h₁,
        State.toNat_argBits h₂, State.toNat_argBits h₃, State.toNat_argBits h₄, wordOfNat_toNat,
        wordOfNat_toNat, wordOfNat_toNat, wordOfNat_toNat]

theorem argBits_of_eq_wordOfNat {s : State} {i : Fin 8} {n : Nat} (h : s.a[i] = wordOfNat n) {w : Nat}
    (hw : w ≤ 64) : s.argBits w i = BitVec.ofNat w n := by
  rw [State.argBits, h, wordOfNat, BitVec.setWidth_ofNat_of_le hw]

theorem ofNat_toNat_byte (b : Byte) : BitVec.ofNat 8 b.toNat = b := by
  rw [BitVec.ofNat_toNat, BitVec.setWidth_eq]

section
variable {s : State} {b₀ b₁ b₂ b₃ b₄ b₅ b₆ : Byte} {p : Span} {r : Vector Word 8}
  (ha : s.a = writeFrom 0 (clientFields ([b₀, b₁, b₂, b₃, b₄, b₅, b₆] ++ p)) r)
include ha

/-- Operands that are the fields of a frame. -/
theorem a_of_clientFields :
    s.a[(1 : Fin 8)] = wordOfNat (b₁.toNat + 256 * b₂.toNat) ∧
      s.a[(2 : Fin 8)] = wordOfNat (b₃.toNat + 256 * b₄.toNat) ∧
      s.a[(3 : Fin 8)] = wordOfNat b₅.toNat ∧ s.a[(4 : Fin 8)] = wordOfNat b₆.toNat := by
  rw [ha, clientFields_bytes]
  simp [writeFrom_getElem]

theorem clientFieldsInRange_of_clientFields : ClientFieldsInRange s := by
  obtain ⟨h₁, h₂, h₃, h₄⟩ := a_of_clientFields ha
  have hle (b c : Byte) : b.toNat + 256 * c.toNat < 2 ^ 16 := by omega
  have hword {n w : Nat} (hn : n < 2 ^ w) (hw : w ≤ 64) : (wordOfNat n).toNat < 2 ^ w := by
    rwa [toNat_wordOfNat (hn.trans_le (Nat.pow_le_pow_right Nat.two_pos hw))]
  rw [clientFieldsInRange_iff, h₁, h₂, h₃, h₄]
  exact ⟨hword (hle _ _) (by decide), hword (hle _ _) (by decide), hword b₅.isLt (by decide),
    hword b₆.isLt (by decide)⟩

/-- The header of a frame's fields is the frame's header. -/
theorem clientHeader_of_clientFields (b : Byte) : clientHeader s b = [b, b₁, b₂, b₃, b₄, b₅, b₆] := by
  obtain ⟨h₁, h₂, h₃, h₄⟩ := a_of_clientFields ha
  rw [clientHeader, argBits_of_eq_wordOfNat h₁ (by decide), argBits_of_eq_wordOfNat h₂ (by decide),
    argBits_of_eq_wordOfNat h₃ (by decide), argBits_of_eq_wordOfNat h₄ (by decide),
    ← le16At_pair b₁ b₂, ← le16At_pair b₃ b₄, byteOrder_le16.bytes_value _ rfl,
    byteOrder_le16.bytes_value _ rfl, ofNat_toNat_byte, ofNat_toNat_byte]
  rfl

end

/-! ### CPH.PACK and CPH.UNPACK (45_client_packet.md R202, R203) -/

theorem exec_cphPack_eq_command (s : State) :
    exec .cphPack s = .next (s.command ((rangeTable .cphPack).map (·.check s)) fun s =>
      s.memWrite (clientHeader s (s.argBits 8 0))) := rfl

/-- The rows of CPH.PACK are the length's and then those of CP.PACK. -/
theorem operandsInRange_cphPack_iff (s : State) :
    OperandsInRange .cphPack s ↔ (6 ≤ s.arg 0 ∧ s.arg 0 ≤ 251) ∧ ClientFieldsInRange s := by
  have hrows : rangeTable .cphPack = ⟨0, 6, 251, .length⟩ :: rangeTable .cpPack := rfl
  rw [operandsInRange_iff (by decide) (by decide), hrows, List.forall_mem_cons]

theorem exec_cphUnpack_eq_command (s : State) :
    exec .cphUnpack s = .next (s.command [sizeIs s.ibuf 7, clientLengthCheck (byteAt s.ibuf 0)] fun s =>
      s.setResults 0 (clientFields s.ibuf)) := rfl

section
variable {s : State}

theorem exec_cphUnpack_of_ne_size (hsize : s.ibuf.length ≠ 7) :
    exec .cphUnpack s = .next (s.raise ⟨.length, .inputSpan⟩) :=
  congrArg _ (State.command_of_ne_size hsize _ _)

theorem exec_cphUnpack_of_illegal_length (hsize : s.ibuf.length = 7)
    (hlen : ¬ (6 ≤ byteAt s.ibuf 0 ∧ byteAt s.ibuf 0 ≤ 251)) :
    exec .cphUnpack s = .next (s.raise ⟨.range, .length⟩) := by
  rw [← clientLengthCheck_holds_iff] at hlen
  rw [exec_cphUnpack_eq_command, State.command_cons_of_holds ((sizeIs_holds_iff ..).2 hsize),
    State.command_cons_of_fails hlen]
  rfl

theorem exec_cphUnpack_of_legal (hsize : s.ibuf.length = 7)
    (hlen : 6 ≤ byteAt s.ibuf 0 ∧ byteAt s.ibuf 0 ≤ 251) :
    exec .cphUnpack s = .next (s.setResults 0 (clientFields s.ibuf)).succeed := by
  rw [exec_cphUnpack_eq_command, State.command_cons_of_holds ((sizeIs_holds_iff ..).2 hsize),
    State.command_cons_of_holds ((clientLengthCheck_holds_iff _).2 hlen)]
  rfl

end

/-! ### CP.PACK (45_client_packet.md R204) -/

/-- The frame for the fields in `A[1]` to `A[4]` and the payload in the input span. -/
def clientFrame (s : State) : Span :=
  clientHeader s (BitVec.ofNat 8 (s.ibuf.length + 6)) ++ s.ibuf

theorem exec_cpPack_eq_command (s : State) :
    exec .cpPack s = .next (s.command
      (rangeCheck (clientLength s.ibuf.length) 6 251 .length :: (rangeTable .cpPack).map (·.check s))
      fun s => (s.memWrite (clientHeader s (BitVec.ofNat 8 (clientLength s.ibuf.length)) ++ s.ibuf)).setR 0
        (wordOfNat (clientLength s.ibuf.length))) := rfl

theorem computedLengthFits_iff_clientLength (s : State) :
    ComputedLengthFits .cpPack s ↔
      (6 : Int) ≤ clientLength s.ibuf.length ∧ (clientLength s.ibuf.length : Int) ≤ 251 := by
  rw [computedLengthFits_cpPack_iff, clientLength_eq]
  omega

theorem exec_cpPack_of_inRange {s : State} (h : OperandsInRange .cpPack s) :
    exec .cpPack s = .next
      ((s.memWrite (clientFrame s)).setR 0 (wordOfNat (s.ibuf.length + 6))).succeed := by
  rw [exec_of_operandsInRange_of_length (exec_cpPack_eq_command s)
    (computedLengthFits_iff_clientLength s) h, clientLength_eq, clientFrame]

/-! ### CP.UNPACK (45_client_packet.md R205) -/

/-- What R205 requires of a frame: room for the header, and a legal length byte that agrees with the size. -/
structure ClientFrameFits (B : Span) : Prop where
  size : 7 ≤ B.length
  legal : 6 ≤ byteAt B 0 ∧ byteAt B 0 ≤ 251
  agrees : byteAt B 0 = B.length - 7 + 6

/-- The check that the length byte agrees with the size. -/
def clientAgreementCheck (B : Span) : Check :=
  ⟨decide (byteAt B 0 = clientLength (B.length - 7)), ⟨.integrity, .length⟩⟩

theorem clientAgreementCheck_holds_iff (B : Span) :
    (clientAgreementCheck B).holds = true ↔ byteAt B 0 = B.length - 7 + 6 := by
  rw [clientAgreementCheck, decide_eq_true_iff, clientLength_eq]

theorem memRead_to_end (B : Span) (off : Nat) : memRead B off (B.length - off) = B.drop off := by
  rw [memRead, ← List.length_drop, List.take_length]

theorem exec_cpUnpack_eq_command (s : State) :
    exec .cpUnpack s = .next (s.command
      [sizeAtLeast s.ibuf 7, clientLengthCheck (byteAt s.ibuf 0), clientAgreementCheck s.ibuf] fun s =>
      (s.setResults 0 (clientFields s.ibuf)).memWrite (memRead s.ibuf 7 (s.ibuf.length - 7))) := rfl

section
variable {s : State}

theorem exec_cpUnpack_of_short (hsize : s.ibuf.length < 7) :
    exec .cpUnpack s = .next (s.raise ⟨.length, .inputSpan⟩) := by
  rw [← Nat.not_le, ← sizeAtLeast_holds_iff] at hsize
  rw [exec_cpUnpack_eq_command, State.command_cons_of_fails hsize, sizeAtLeast_error]

theorem exec_cpUnpack_of_illegal_length (hsize : 7 ≤ s.ibuf.length)
    (hlen : ¬ (6 ≤ byteAt s.ibuf 0 ∧ byteAt s.ibuf 0 ≤ 251)) :
    exec .cpUnpack s = .next (s.raise ⟨.range, .length⟩) := by
  rw [← clientLengthCheck_holds_iff] at hlen
  rw [exec_cpUnpack_eq_command, State.command_cons_of_holds ((sizeAtLeast_holds_iff ..).2 hsize),
    State.command_cons_of_fails hlen]
  rfl

theorem exec_cpUnpack_of_disagreement (hsize : 7 ≤ s.ibuf.length)
    (hlen : 6 ≤ byteAt s.ibuf 0 ∧ byteAt s.ibuf 0 ≤ 251)
    (hne : byteAt s.ibuf 0 ≠ s.ibuf.length - 7 + 6) :
    exec .cpUnpack s = .next (s.raise ⟨.integrity, .length⟩) := by
  rw [ne_eq, ← clientAgreementCheck_holds_iff] at hne
  rw [exec_cpUnpack_eq_command, State.command_cons_of_holds ((sizeAtLeast_holds_iff ..).2 hsize),
    State.command_cons_of_holds ((clientLengthCheck_holds_iff _).2 hlen), State.command_cons_of_fails hne]
  rfl

theorem clientFrameFits_iff_checks (B : Span) :
    (∀ c ∈ [sizeAtLeast B 7, clientLengthCheck (byteAt B 0), clientAgreementCheck B], c.holds = true) ↔
      ClientFrameFits B := by
  simp only [List.forall_mem_cons, sizeAtLeast_holds_iff, clientLengthCheck_holds_iff,
    clientAgreementCheck_holds_iff]
  exact ⟨fun ⟨hsize, hlen, hagrees, _⟩ => ⟨hsize, hlen, hagrees⟩,
    fun h => ⟨h.size, h.legal, h.agrees, nofun⟩⟩

theorem exec_cpUnpack_of_fits (h : ClientFrameFits s.ibuf) :
    exec .cpUnpack s = .next
      ((s.setResults 0 (clientFields s.ibuf)).memWrite (s.ibuf.drop 7)).succeed := by
  rw [exec_cpUnpack_eq_command, State.command_of_holds _ _ ((clientFrameFits_iff_checks _).2 h),
    memRead_to_end]

/-- CP.UNPACK succeeds on no other span. -/
theorem clientFrameFits_of_success {t : State} (h : exec .cpUnpack s = .next t)
    (hok : statusKind t.status = 0) : ClientFrameFits s.ibuf := by
  obtain rfl := Host.Outcome.next.inj ((exec_cpUnpack_eq_command s).symm.trans h)
  exact (clientFrameFits_iff_checks _).1 (State.checks_hold_of_success hok)

end

/-! ### The frame that CP.PACK writes (45_client_packet.md R206) -/

theorem exists_bytes_of_length {B : Span} (h : 7 ≤ B.length) :
    ∃ b₀ b₁ b₂ b₃ b₄ b₅ b₆ : Byte, ∃ p : Span, B = [b₀, b₁, b₂, b₃, b₄, b₅, b₆] ++ p := by
  obtain ⟨header, p, rfl, hheader⟩ : ∃ header p, B = header ++ p ∧ header.length = 7 :=
    ⟨B.take 7, B.drop 7, (List.take_append_drop 7 B).symm, List.length_take_of_le h⟩
  match header, hheader with
  | [b₀, b₁, b₂, b₃, b₄, b₅, b₆], _ => exact ⟨b₀, b₁, b₂, b₃, b₄, b₅, b₆, p, rfl⟩

theorem toNat_clientLengthByte {s : State} (h : OperandsInRange .cpPack s) :
    (BitVec.ofNat 8 (s.ibuf.length + 6)).toNat = s.ibuf.length + 6 := by
  have hfits := (computedLengthFits_cpPack_iff s).1 h.1
  exact BitVec.toNat_ofNat _ _ |>.trans (Nat.mod_eq_of_lt (by omega))

theorem clientFrameFits_clientFrame {s : State} (h : OperandsInRange .cpPack s) :
    ClientFrameFits (clientFrame s) := by
  have hfits := (computedLengthFits_cpPack_iff s).1 h.1
  have hsize : (clientFrame s).length = 7 + s.ibuf.length := by
    rw [clientFrame, List.length_append, clientHeader_length]
  have hbyte : byteAt (clientFrame s) 0 = s.ibuf.length + 6 := toNat_clientLengthByte h
  exact ⟨by omega, by omega, by omega⟩

theorem drop_clientFrame (s : State) : (clientFrame s).drop 7 = s.ibuf := rfl

/-- A frame that fits is the frame of its fields and its payload. -/
theorem clientFrame_of_clientFields {s : State} {B : Span} {r : Vector Word 8} (hB : ClientFrameFits B)
    (ha : s.a = writeFrom 0 (clientFields B) r) (hi : s.ibuf = B.drop 7) :
    OperandsInRange .cpPack s ∧ clientFrame s = B := by
  obtain ⟨hsize, ⟨-, hhi⟩, hagrees⟩ := hB
  have hlength : s.ibuf.length = B.length - 7 := by rw [hi, List.length_drop]
  rw [← hlength] at hagrees
  obtain ⟨b₀, b₁, b₂, b₃, b₄, b₅, b₆, p, rfl⟩ := exists_bytes_of_length hsize
  refine ⟨⟨(computedLengthFits_cpPack_iff s).2 (hagrees ▸ hhi),
    clientFieldsInRange_of_clientFields ha⟩, ?_⟩
  have hbyte : BitVec.ofNat 8 (s.ibuf.length + 6) = b₀ := hagrees ▸ ofNat_toNat_byte b₀
  rw [clientFrame, clientHeader_of_clientFields ha, hbyte, hi]
  rfl

/-- CP.PACK of the fields and the payload of a frame that fits writes the frame. -/
theorem exec_cpPack_of_clientFields {s : State} {B : Span} {r : Vector Word 8} (hB : ClientFrameFits B)
    (ha : s.a = writeFrom 0 (clientFields B) r) (hi : s.ibuf = B.drop 7) :
    exec .cpPack s = .next ((s.memWrite B).setR 0 (wordOfNat (s.ibuf.length + 6))).succeed := by
  obtain ⟨hrange, hframe⟩ := clientFrame_of_clientFields hB ha hi
  rw [exec_cpPack_of_inRange hrange, hframe]

/-! ### The statements -/

/-- Settles O46: each byte is a quotient of an operand, and the checks are the command's rows of the table. -/
theorem cphPackResult : Obligations.CphPackResult := by
  refine fun s => ⟨fun h => ?_,
    raisesFirstRangeError_of_checks (exec_cphPack_eq_command s) (by decide) (by decide)⟩
  obtain ⟨⟨hlo, -⟩, hfields⟩ := (operandsInRange_cphPack_iff s).1 h
  rw [exec_of_operandsInRange (exec_cphPack_eq_command s) h, clientHeader_eq hfields,
    argBits_eight (by omega)]
  rfl

/-- Settles O47: the size decides, then the length byte. -/
theorem cphUnpackResult : Obligations.CphUnpackResult := by
  refine fun s => ⟨fun b₀ b₁ b₂ b₃ b₄ b₅ b₆ h => ?_, exec_cphUnpack_of_ne_size⟩
  have hsize : s.ibuf.length = 7 := h ▸ rfl
  have hbyte : byteAt s.ibuf 0 = b₀.toNat := h ▸ rfl
  rw [← hbyte]
  refine ⟨fun hlen => ?_, exec_cphUnpack_of_illegal_length hsize⟩
  have hfields := clientFields_bytes b₀ b₁ b₂ b₃ b₄ b₅ b₆ []
  rw [List.append_nil, ← h, ← hbyte] at hfields
  rw [exec_cphUnpack_of_legal hsize hlen, hfields, State.setResults, writeFrom_zero_five]
  rfl

/-- Settles O48: the computed length is checked before the command's rows of the table. -/
theorem cpPackResult : Obligations.CpPackResult := by
  refine fun s => ⟨fun h => ?_, raisesFirstRangeError_of_length (exec_cpPack_eq_command s)
    (computedLengthFits_iff_clientLength s)⟩
  rw [exec_cpPack_of_inRange h, clientFrame, clientHeader_eq h.2]
  rfl

/-- Settles O49: the three checks in order, each deciding where those before it hold. -/
theorem cpUnpackResult : Obligations.CpUnpackResult := by
  refine fun s => ⟨fun b₀ b₁ b₂ b₃ b₄ b₅ b₆ p h => ?_, exec_cpUnpack_of_short⟩
  have hlength : s.ibuf.length = 7 + p.length := by rw [h, List.length_append]; rfl
  have hsize : 7 ≤ s.ibuf.length := by omega
  have hbyte : byteAt s.ibuf 0 = b₀.toNat := h ▸ rfl
  have hagrees : 7 + p.length - 1 = s.ibuf.length - 7 + 6 := by omega
  rw [hagrees, ← hbyte]
  refine ⟨fun hlen heq => ?_, exec_cpUnpack_of_disagreement hsize, exec_cpUnpack_of_illegal_length hsize⟩
  have hfields := clientFields_bytes b₀ b₁ b₂ b₃ b₄ b₅ b₆ p
  rw [← h, ← hbyte] at hfields
  have hpayload : s.ibuf.drop 7 = p := h ▸ rfl
  rw [exec_cpUnpack_of_fits ⟨hsize, hlen, heq⟩, hfields, hpayload, State.setResults, writeFrom_zero_five]
  rfl

/-- Settles O50: the frame that CP.PACK writes fits and has the operands as its fields, and a frame that fits is
the frame of its fields and its payload. -/
theorem clientPacketRoundTrip : Obligations.ClientPacketRoundTrip := by
  refine fun s => ⟨fun h => ?_, fun t ht hok => ?_⟩
  · have hfields : clientFields (clientFrame s) = _ := clientFields_clientHeader h.2 _ _
    rw [toNat_clientLengthByte h] at hfields
    refine ⟨_, _, _, exec_cpPack_of_inRange h, exec_xfer _,
      exec_cpUnpack_of_fits (clientFrameFits_clientFrame h), statusKind_statusOk _, drop_clientFrame s,
      ?_, fun k hlo hhi => ?_⟩
    · simp [hfields, writeFrom_zero_five, wordOfNat]
    · obtain rfl | rfl | rfl | rfl : k = 1 ∨ k = 2 ∨ k = 3 ∨ k = 4 := by omega
      all_goals simp [hfields, writeFrom_zero_five]
  · have hfits := clientFrameFits_of_success ht hok
    obtain rfl := Host.Outcome.next.inj ((exec_cpUnpack_of_fits hfits).symm.trans ht)
    exact ⟨_, _, exec_xfer _, exec_cpPack_of_clientFields hfits (r := s.r) rfl rfl, rfl⟩

end Sys2Proof.Machine
end

section
/-! SUPPORT. The header and the footer of the space packet (46_space_packet.md R220 to R227): the bytes of each and
its fields as each other's inverse, and the four commands that check and copy them. -/

namespace Sys2Proof.Machine

/-! ### The fields in the argument registers (46_space_packet.md R220, R222, R228) -/

/-- The four header fields after the length byte are in range. -/
abbrev SpaceFieldsInRange (s : State) : Prop := ∀ f ∈ (rangeTable .spPack).take 4, f.holds s

theorem spaceFieldsInRange_iff (s : State) :
    SpaceFieldsInRange s ↔ (s.a[(1 : Fin 8)]).toNat < 2 ^ 1 ∧ (s.a[(2 : Fin 8)]).toNat < 2 ^ 16 ∧
      (s.a[(3 : Fin 8)]).toNat < 2 ^ 8 ∧ (s.a[(4 : Fin 8)]).toNat < 2 ^ 8 := by
  simp only [← State.arg_inRange_iff _ (by decide : 1 < 64), ← State.arg_inRange_iff _ (by decide : 16 < 64),
    ← State.arg_inRange_iff _ (by decide : 8 < 64)]
  simp [SpaceFieldsInRange, rangeTable]

/-- The rows of SPH.PACK are the length's and then the header's rows of SP.PACK. -/
theorem operandsInRange_sphPack_iff (s : State) :
    OperandsInRange .sphPack s ↔ (10 ≤ s.arg 0 ∧ s.arg 0 ≤ 251) ∧ SpaceFieldsInRange s := by
  have hrows : rangeTable .sphPack = ⟨0, 10, 251, .length⟩ :: (rangeTable .spPack).take 4 := rfl
  rw [operandsInRange_iff (by decide) (by decide), hrows, List.forall_mem_cons]

/-- The header's bytes in plain arithmetic on the operands. -/
theorem spaceHeader_eq {s : State} (h : SpaceFieldsInRange s) (b : Byte) :
    spaceHeader s b = [b, BitVec.ofInt 8 (s.arg 1), BitVec.ofInt 8 (s.arg 2),
      BitVec.ofInt 8 (s.arg 2 / 256), BitVec.ofInt 8 (s.arg 3), BitVec.ofInt 8 (s.arg 4)] := by
  simp only [SpaceFieldsInRange, rangeTable, List.take, List.forall_mem_cons, FieldRange.holds] at h
  obtain ⟨⟨h₁, -⟩, ⟨h₂, -⟩, ⟨h₃, -⟩, ⟨h₄, -⟩, -⟩ := h
  rw [spaceHeader, argBits_eight h₁, le16_argBits h₂, argBits_eight h₃, argBits_eight h₄]
  rfl

/-- The fields of a header are the operands it was made of. -/
theorem spaceFields_spaceHeader {s : State} (h : SpaceFieldsInRange s) (b : Byte) (B : Span) :
    spaceFields (spaceHeader s b ++ B) =
      [wordOfNat b.toNat, s.a[(1 : Fin 8)], s.a[(2 : Fin 8)], s.a[(3 : Fin 8)], s.a[(4 : Fin 8)]] := by
  obtain ⟨h₁, h₂, h₃, h₄⟩ := (spaceFieldsInRange_iff s).1 h
  calc spaceFields (spaceHeader s b ++ B)
    _ = [wordOfNat b.toNat, wordOfNat (s.argBits 8 1).toNat,
          wordOfNat (le16At (le16 (s.argBits 16 2)) 0), wordOfNat (s.argBits 8 3).toNat,
          wordOfNat (s.argBits 8 4).toNat] := rfl
    _ = _ := by
      rw [byteOrder_le16.value_bytes, State.toNat_argBits (h₁.trans_le (by decide)),
        State.toNat_argBits h₂, State.toNat_argBits h₃, State.toNat_argBits h₄, wordOfNat_toNat,
        wordOfNat_toNat, wordOfNat_toNat, wordOfNat_toNat]

/-! ### SPH.PACK (46_space_packet.md R222) -/

theorem exec_sphPack_eq_command (s : State) :
    exec .sphPack s = .next (s.command ((rangeTable .sphPack).map (·.check s)) fun s =>
      s.memWrite (spaceHeader s (s.argBits 8 0))) := rfl

/-! ### The checks of a header (46_space_packet.md R223, R230) -/

/-- The two checks that SPH.UNPACK and SP.UNPACK make after the size. -/
def spaceHeaderChecks (B : Span) : List Check :=
  [spaceLengthCheck (byteAt B 0), rangeCheck (byteAt B 1) 0 1 .port]

/-- What those checks require. -/
structure SpaceHeaderLegal (B : Span) : Prop where
  length : 10 ≤ byteAt B 0 ∧ byteAt B 0 ≤ 251
  port : byteAt B 1 ≤ 1

theorem spaceLengthCheck_holds_iff (n : Nat) :
    (spaceLengthCheck n).holds = true ↔ 10 ≤ n ∧ n ≤ 251 := by
  rw [spaceLengthCheck, rangeCheck_holds_iff]
  exact and_congr Nat.cast_le Nat.cast_le

theorem portCheck_holds_iff (n : Nat) : (rangeCheck n 0 1 .port).holds = true ↔ n ≤ 1 := by
  rw [rangeCheck_holds_iff]
  omega

section
variable {s : State} {size : Check} {B : Span} {checks : List Check} {effect : State → State}
  (hsize : size.holds = true)
include hsize

theorem State.command_of_illegal_spaceLength (hlen : ¬ (10 ≤ byteAt B 0 ∧ byteAt B 0 ≤ 251)) :
    s.command (size :: (spaceHeaderChecks B ++ checks)) effect = s.raise ⟨.range, .length⟩ := by
  rw [← spaceLengthCheck_holds_iff] at hlen
  rw [State.command_cons_of_holds hsize, spaceHeaderChecks, List.cons_append,
    State.command_cons_of_fails hlen]
  rfl

theorem State.command_of_illegal_port (hlen : 10 ≤ byteAt B 0 ∧ byteAt B 0 ≤ 251)
    (hport : 1 < byteAt B 1) :
    s.command (size :: (spaceHeaderChecks B ++ checks)) effect = s.raise ⟨.range, .port⟩ := by
  rw [← Nat.not_le, ← portCheck_holds_iff] at hport
  rw [State.command_cons_of_holds hsize, spaceHeaderChecks, List.cons_append, List.cons_append,
    State.command_cons_of_holds ((spaceLengthCheck_holds_iff _).2 hlen),
    State.command_cons_of_fails hport, rangeCheck_error]

/-- A legal header leaves the outcome to the checks after it. -/
theorem State.command_of_legal_spaceHeader (h : SpaceHeaderLegal B) :
    s.command (size :: (spaceHeaderChecks B ++ checks)) effect = s.command checks effect := by
  rw [State.command_cons_of_holds hsize, spaceHeaderChecks, List.cons_append, List.cons_append,
    State.command_cons_of_holds ((spaceLengthCheck_holds_iff _).2 h.length),
    State.command_cons_of_holds ((portCheck_holds_iff _).2 h.port), List.nil_append]

end

/-! ### SPH.UNPACK (46_space_packet.md R223) -/

theorem exec_sphUnpack_eq_command (s : State) :
    exec .sphUnpack s = .next (s.command (sizeIs s.ibuf 6 :: (spaceHeaderChecks s.ibuf ++ [])) fun s =>
      s.setResults 0 (spaceFields s.ibuf)) := rfl

section
variable {s : State}

theorem exec_sphUnpack_of_ne_size (hsize : s.ibuf.length ≠ 6) :
    exec .sphUnpack s = .next (s.raise ⟨.length, .inputSpan⟩) :=
  congrArg _ (State.command_of_ne_size hsize _ _)

variable (hsize : s.ibuf.length = 6)
include hsize

theorem exec_sphUnpack_of_illegal_length (hlen : ¬ (10 ≤ byteAt s.ibuf 0 ∧ byteAt s.ibuf 0 ≤ 251)) :
    exec .sphUnpack s = .next (s.raise ⟨.range, .length⟩) :=
  congrArg _ (State.command_of_illegal_spaceLength ((sizeIs_holds_iff ..).2 hsize) hlen)

theorem exec_sphUnpack_of_illegal_port (hlen : 10 ≤ byteAt s.ibuf 0 ∧ byteAt s.ibuf 0 ≤ 251)
    (hport : 1 < byteAt s.ibuf 1) : exec .sphUnpack s = .next (s.raise ⟨.range, .port⟩) :=
  congrArg _ (State.command_of_illegal_port ((sizeIs_holds_iff ..).2 hsize) hlen hport)

theorem exec_sphUnpack_of_legal (h : SpaceHeaderLegal s.ibuf) :
    exec .sphUnpack s = .next (s.setResults 0 (spaceFields s.ibuf)).succeed := by
  rw [exec_sphUnpack_eq_command, State.command_of_legal_spaceHeader ((sizeIs_holds_iff ..).2 hsize) h]
  rfl

end

/-! ### The footer (46_space_packet.md R224, R226, R227) -/

/-- The footer's bytes in plain arithmetic on hardware_id's operand and the CRC. -/
theorem spaceFooter_eq {s : State} (h : 0 ≤ s.arg 5) (c : BitVec 16) :
    spaceFooter (s.argBits 16 5) c = [BitVec.ofInt 8 (s.arg 5), BitVec.ofInt 8 (s.arg 5 / 256),
      BitVec.ofNat 8 c.toNat, BitVec.ofNat 8 (c.toNat / 256)] := by
  rw [spaceFooter, le16_argBits h, crcWire_eq]
  rfl

theorem exec_spfPack_eq_command (s : State) :
    exec .spfPack s = .next (s.command ((rangeTable .spfPack).map (·.check s)) fun s =>
      s.memWrite (spaceFooter (s.argBits 16 5) (s.argBits 16 6))) := rfl

theorem writeFrom_five_two (v₅ v₆ : Word) (r : Vector Word 8) :
    writeFrom 5 [v₅, v₆] r = (r.set 5 v₅).set 6 v₆ := by
  simp only [writeFrom]
  repeat rw [setIfInBounds_eq_set _ (by decide)]

theorem exec_spfUnpack_of_size {s : State} (h : s.ibuf.length = 4) :
    exec .spfUnpack s = .next
      (s.setResults 5 [wordOfNat (le16At s.ibuf 0), wordOfNat (le16At s.ibuf 2)]).succeed := by
  have hsize : ∀ c ∈ [sizeIs s.ibuf Config.spFtrLen], c.holds = true := by
    rw [List.forall_mem_singleton, sizeIs_holds_iff, h]
    rfl
  exact congrArg _ (State.command_of_holds _ _ hsize)

theorem exec_spfUnpack_of_ne_size {s : State} (h : s.ibuf.length ≠ 4) :
    exec .spfUnpack s = .next (s.raise ⟨.length, .inputSpan⟩) :=
  congrArg _ (State.command_of_ne_size h _ _)

/-! ### The statements about the header and the footer -/

/-- Settles O51: each byte is a quotient of an operand, and the checks are the command's rows of the table. -/
theorem sphPackResult : Obligations.SphPackResult := by
  refine fun s => ⟨fun h => ?_,
    raisesFirstRangeError_of_checks (exec_sphPack_eq_command s) (by decide) (by decide)⟩
  obtain ⟨⟨hlo, -⟩, hfields⟩ := (operandsInRange_sphPack_iff s).1 h
  rw [exec_of_operandsInRange (exec_sphPack_eq_command s) h, spaceHeader_eq hfields,
    argBits_eight (by omega)]
  rfl

/-- Settles O52: the size decides, then the length byte, then the port byte. -/
theorem sphUnpackResult : Obligations.SphUnpackResult := by
  refine fun s => ⟨fun b₀ b₁ b₂ b₃ b₄ b₅ h => ?_, exec_sphUnpack_of_ne_size⟩
  have hsize : s.ibuf.length = 6 := h ▸ rfl
  have hbyte₀ : byteAt s.ibuf 0 = b₀.toNat := h ▸ rfl
  have hbyte₁ : byteAt s.ibuf 1 = b₁.toNat := h ▸ rfl
  have hfields : spaceFields s.ibuf = [wordOfNat b₀.toNat, wordOfNat b₁.toNat,
      wordOfNat (b₂.toNat + 256 * b₃.toNat), wordOfNat b₄.toNat, wordOfNat b₅.toNat] := h ▸ rfl
  rw [← hbyte₀, ← hbyte₁] at hfields ⊢
  refine ⟨fun hlen hport => ?_, exec_sphUnpack_of_illegal_length hsize,
    exec_sphUnpack_of_illegal_port hsize⟩
  rw [exec_sphUnpack_of_legal hsize ⟨hlen, hport⟩, hfields, State.setResults, writeFrom_zero_five]
  rfl

/-- Settles O53: the footer's bytes are quotients of the operands, and its integers those of its bytes. -/
theorem footerCodecResults : Obligations.FooterCodecResults := by
  refine fun s => ⟨fun h => ?_,
    raisesFirstRangeError_of_checks (exec_spfPack_eq_command s) (by decide) (by decide),
    fun b₀ b₁ b₂ b₃ h => ?_, exec_spfUnpack_of_ne_size⟩
  · have hrows := h.2
    simp only [rangeTable, List.forall_mem_cons, FieldRange.holds] at hrows
    obtain ⟨⟨h₅, -⟩, ⟨h₆, -⟩, -⟩ := hrows
    rw [exec_of_operandsInRange (exec_spfPack_eq_command s) h, spaceFooter, le16_argBits h₅, crcWire,
      le16_argBits h₆]
    rfl
  · have hid : le16At s.ibuf 0 = b₀.toNat + 256 * b₁.toNat := h ▸ rfl
    have hcrc : le16At s.ibuf 2 = b₂.toNat + 256 * b₃.toNat := h ▸ rfl
    rw [exec_spfUnpack_of_size (h ▸ rfl), hid, hcrc, State.setResults, writeFrom_five_two]
    rfl

end Sys2Proof.Machine
end

section
/-! SUPPORT. The whole space packet (46_space_packet.md R225 to R232): the parts of a frame, which frames SP.UNPACK
accepts, the frame that SP.PACK writes as one of them, and what a changed byte makes of such a frame. -/

namespace Sys2Proof.Machine

/-! ### The parts of a frame (46_space_packet.md R220, R224, R225) -/

/-- The hardware_id that stands in the first two bytes of a frame's footer. -/
def storedHardwareId (frame : Span) : Nat := le16At frame (frame.length - 4)

/-- What stands between a frame's header and its footer. -/
def spacePayload (frame : Span) : Span := memRead frame 6 (frame.length - 10)

theorem byteAt_append_right (B C : Span) (j : Nat) : byteAt (B ++ C) (B.length + j) = byteAt C j := by
  rw [byteAt, List.getD_append_right _ _ _ _ (Nat.le_add_right ..), Nat.add_sub_cancel_left, byteAt]

theorem le16At_append_right (B C : Span) (j : Nat) : le16At (B ++ C) (B.length + j) = le16At C j := by
  rw [le16At, le16At, Nat.add_assoc, byteAt_append_right, byteAt_append_right]

section
variable {footer : Span} (h : footer.length = 4) (B : Span)
include h

theorem crcCoverage_append_footer : crcCoverage (B ++ footer) = B := by
  have hlength : (B ++ footer).length - 4 = B.length := by rw [List.length_append, h, Nat.add_sub_cancel]
  rw [crcCoverage, Config.spFtrLen, hlength, memRead, List.drop_zero, List.take_left]

theorem storedHardwareId_append_footer : storedHardwareId (B ++ footer) = le16At footer 0 := by
  rw [storedHardwareId, List.length_append, h, Nat.add_sub_cancel]
  exact le16At_append_right B footer 0

theorem storedCrc_append_footer : storedCrc (B ++ footer) = le16At footer 2 := by
  have hoffset : (B ++ footer).length - 2 = B.length + 2 := by rw [List.length_append, h]; rfl
  rw [storedCrc, hoffset, le16At_append_right]

theorem spacePayload_append_footer {header : Span} (hheader : header.length = 6) :
    spacePayload (header ++ B ++ footer) = B := by
  have hlength : (header ++ B ++ footer).length - 10 = B.length := by
    rw [List.length_append, List.length_append]
    omega
  rw [spacePayload, hlength, memRead, List.append_assoc, List.drop_left' hheader, List.take_left]

end

/-! ### SP.UNPACK (46_space_packet.md R230) -/

/-- The check that the length byte agrees with the size. -/
def spaceAgreementCheck (B : Span) : Check := ⟨decide (byteAt B 0 = B.length), ⟨.integrity, .length⟩⟩

/-- The check that the stored CRC is that of the bytes before the footer. -/
def spaceCrcCheck (B : Span) : Check :=
  ⟨decide (storedCrc B = (crc16 (crcCoverage B)).toNat), ⟨.checksum, .crc⟩⟩

theorem spaceAgreementCheck_holds_iff (B : Span) :
    (spaceAgreementCheck B).holds = true ↔ byteAt B 0 = B.length := decide_eq_true_iff

theorem spaceCrcCheck_holds_iff (B : Span) :
    (spaceCrcCheck B).holds = true ↔ storedCrc B = (crc16 (crcCoverage B)).toNat := decide_eq_true_iff

/-- The seven values that SP.UNPACK delivers. -/
def spaceResults (B : Span) : List Word :=
  spaceFields B ++ [wordOfNat (storedHardwareId B), wordOfNat (storedCrc B)]

/-- What SP.UNPACK makes of a frame that passes every check. -/
def State.deliverFrame (s : State) : State :=
  { (s.setResults 0 (spaceResults s.ibuf)).memWrite (spacePayload s.ibuf) with
    crcAcc := crc16 (crcCoverage s.ibuf) }

@[simp] theorem State.deliverFrame_r (s : State) :
    s.deliverFrame.r = writeFrom 0 (spaceResults s.ibuf) s.r := rfl

@[simp] theorem State.deliverFrame_obuf (s : State) : s.deliverFrame.obuf = spacePayload s.ibuf := rfl

theorem exec_spUnpack_eq_command (s : State) :
    exec .spUnpack s = .next (s.command
      (sizeAtLeast s.ibuf 10 ::
        (spaceHeaderChecks s.ibuf ++ [spaceAgreementCheck s.ibuf, spaceCrcCheck s.ibuf]))
      State.deliverFrame) := rfl

section
variable {s : State}

theorem exec_spUnpack_of_short (hsize : s.ibuf.length < 10) :
    exec .spUnpack s = .next (s.raise ⟨.length, .inputSpan⟩) := by
  rw [← Nat.not_le, ← sizeAtLeast_holds_iff] at hsize
  rw [exec_spUnpack_eq_command, State.command_cons_of_fails hsize, sizeAtLeast_error]

variable (hsize : 10 ≤ s.ibuf.length)
include hsize

theorem exec_spUnpack_of_illegal_length (hlen : ¬ (10 ≤ byteAt s.ibuf 0 ∧ byteAt s.ibuf 0 ≤ 251)) :
    exec .spUnpack s = .next (s.raise ⟨.range, .length⟩) :=
  congrArg _ (State.command_of_illegal_spaceLength ((sizeAtLeast_holds_iff ..).2 hsize) hlen)

theorem exec_spUnpack_of_illegal_port (hlen : 10 ≤ byteAt s.ibuf 0 ∧ byteAt s.ibuf 0 ≤ 251)
    (hport : 1 < byteAt s.ibuf 1) : exec .spUnpack s = .next (s.raise ⟨.range, .port⟩) :=
  congrArg _ (State.command_of_illegal_port ((sizeAtLeast_holds_iff ..).2 hsize) hlen hport)

variable (hheader : SpaceHeaderLegal s.ibuf)
include hheader

theorem exec_spUnpack_of_legal_header :
    exec .spUnpack s = .next
      (s.command [spaceAgreementCheck s.ibuf, spaceCrcCheck s.ibuf] State.deliverFrame) :=
  congrArg _ (State.command_of_legal_spaceHeader ((sizeAtLeast_holds_iff ..).2 hsize) hheader)

theorem exec_spUnpack_of_disagreement (hne : byteAt s.ibuf 0 ≠ s.ibuf.length) :
    exec .spUnpack s = .next (s.raise ⟨.integrity, .length⟩) := by
  rw [ne_eq, ← spaceAgreementCheck_holds_iff] at hne
  rw [exec_spUnpack_of_legal_header hsize hheader, State.command_cons_of_fails hne]
  rfl

theorem exec_spUnpack_of_wrong_crc (hagrees : byteAt s.ibuf 0 = s.ibuf.length)
    (hne : storedCrc s.ibuf ≠ (crc16 (crcCoverage s.ibuf)).toNat) :
    exec .spUnpack s = .next (s.raise ⟨.checksum, .crc⟩) := by
  rw [ne_eq, ← spaceCrcCheck_holds_iff] at hne
  rw [exec_spUnpack_of_legal_header hsize hheader,
    State.command_cons_of_holds ((spaceAgreementCheck_holds_iff _).2 hagrees),
    State.command_cons_of_fails hne]
  rfl

end

/-- What R230 requires of a frame; that it has 10 bytes follows. -/
structure SpaceFrameFits (B : Span) : Prop where
  header : SpaceHeaderLegal B
  agrees : byteAt B 0 = B.length
  crc : storedCrc B = (crc16 (crcCoverage B)).toNat

theorem SpaceFrameFits.size {B : Span} (h : SpaceFrameFits B) : 10 ≤ B.length :=
  h.agrees ▸ h.header.length.1

theorem exec_spUnpack_of_fits {s : State} (h : SpaceFrameFits s.ibuf) :
    exec .spUnpack s = .next s.deliverFrame.succeed := by
  rw [exec_spUnpack_of_legal_header h.size h.header,
    State.command_cons_of_holds ((spaceAgreementCheck_holds_iff _).2 h.agrees),
    State.command_cons_of_holds ((spaceCrcCheck_holds_iff _).2 h.crc)]
  rfl

/-- SP.UNPACK's results, written out register by register. -/
theorem writeFrom_zero_seven (v₀ v₁ v₂ v₃ v₄ v₅ v₆ : Word) (r : Vector Word 8) :
    writeFrom 0 [v₀, v₁, v₂, v₃, v₄, v₅, v₆] r =
      ((((((r.set 0 v₀).set 1 v₁).set 2 v₂).set 3 v₃).set 4 v₄).set 5 v₅).set 6 v₆ := by
  simp only [writeFrom]
  repeat rw [setIfInBounds_eq_set _ (by decide)]

/-! ### SP.PACK (46_space_packet.md R228) -/

/-- The header and the payload that SP.PACK writes: the bytes its CRC covers. -/
def coveredBytes (s : State) : Span := spaceHeader s (BitVec.ofNat 8 (s.ibuf.length + 10)) ++ s.ibuf

/-- The CRC that SP.PACK computes. -/
def computedCrc (s : State) : BitVec 16 := crc16 (coveredBytes s)

/-- The frame for the fields in `A[1]` to `A[5]` and the payload in the input span. -/
def spaceFrame (s : State) : Span := coveredBytes s ++ spaceFooter (s.argBits 16 5) (computedCrc s)

theorem spaceLength_eq (n : Nat) : spaceLength n = n + 10 := by
  rw [spaceLength, Config.spHdrLen, Config.spFtrLen]
  omega

theorem computedLengthFits_spPack_iff (s : State) :
    ComputedLengthFits .spPack s ↔ s.ibuf.length + 10 ≤ 251 := by
  simp [ComputedLengthFits, Nat.add_comm]

theorem computedLengthFits_iff_spaceLength (s : State) :
    ComputedLengthFits .spPack s ↔
      (10 : Int) ≤ spaceLength s.ibuf.length ∧ (spaceLength s.ibuf.length : Int) ≤ 251 := by
  rw [computedLengthFits_spPack_iff, spaceLength_eq]
  omega

/-- The rows of SP.PACK are the header's and then hardware_id's. -/
theorem operandsInRange_spPack_iff (s : State) :
    OperandsInRange .spPack s ↔
      s.ibuf.length + 10 ≤ 251 ∧ SpaceFieldsInRange s ∧ 0 ≤ s.arg 5 ∧ s.arg 5 ≤ 65535 := by
  have hrows : rangeTable .spPack = (rangeTable .spPack).take 4 ++ [⟨5, 0, 65535, .hardwareId⟩] := rfl
  rw [OperandsInRange, computedLengthFits_spPack_iff, hrows, List.forall_mem_append,
    List.forall_mem_singleton]

/-- What SP.PACK does where every operand is in range. -/
def State.writeFrame (s : State) : State :=
  { s with
    obuf := spaceFrame s
    r := (s.r.set 0 (wordOfNat (s.ibuf.length + 10))).set 6 ((computedCrc s).setWidth 64)
    crcAcc := computedCrc s }

@[simp] theorem State.writeFrame_r (s : State) :
    s.writeFrame.r = (s.r.set 0 (wordOfNat (s.ibuf.length + 10))).set 6 ((computedCrc s).setWidth 64) := rfl

@[simp] theorem State.writeFrame_obuf (s : State) : s.writeFrame.obuf = spaceFrame s := rfl

theorem exec_spPack_eq_command (s : State) :
    exec .spPack s = .next (s.command
      (rangeCheck (spaceLength s.ibuf.length) 10 251 .length :: (rangeTable .spPack).map (·.check s))
      fun s =>
        let covered := spaceHeader s (BitVec.ofNat 8 (spaceLength s.ibuf.length)) ++ s.ibuf
        { ((s.memWrite (covered ++ spaceFooter (s.argBits 16 5) (crc16 covered))).setR 0
            (wordOfNat (spaceLength s.ibuf.length))).setR 6 ((crc16 covered).setWidth 64) with
          crcAcc := crc16 covered }) := rfl

theorem exec_spPack_of_inRange {s : State} (h : OperandsInRange .spPack s) :
    exec .spPack s = .next s.writeFrame.succeed := by
  rw [exec_of_operandsInRange_of_length (exec_spPack_eq_command s)
    (computedLengthFits_iff_spaceLength s) h, spaceLength_eq]
  rfl

/-! ### The frame that SP.PACK writes (46_space_packet.md R231) -/

theorem length_spaceFrame (s : State) : (spaceFrame s).length = s.ibuf.length + 10 := by
  rw [spaceFrame, coveredBytes, List.length_append, List.length_append, spaceHeader_length,
    spaceFooter_length]
  omega

theorem crcCoverage_spaceFrame (s : State) : crcCoverage (spaceFrame s) = coveredBytes s :=
  crcCoverage_append_footer rfl _

theorem spacePayload_spaceFrame (s : State) : spacePayload (spaceFrame s) = s.ibuf :=
  spacePayload_append_footer (header := spaceHeader s _) rfl _ rfl

theorem storedCrc_spaceFrame (s : State) : storedCrc (spaceFrame s) = (computedCrc s).toNat :=
  (storedCrc_append_footer rfl _).trans (byteOrder_le16.value_bytes (computedCrc s))

theorem storedHardwareId_spaceFrame (s : State) :
    storedHardwareId (spaceFrame s) = (s.argBits 16 5).toNat :=
  (storedHardwareId_append_footer rfl _).trans (byteOrder_le16.value_bytes (s.argBits 16 5))

section
variable {s : State} (h : OperandsInRange .spPack s)
include h

theorem toNat_spaceLengthByte : (BitVec.ofNat 8 (s.ibuf.length + 10)).toNat = s.ibuf.length + 10 := by
  have hfits := (computedLengthFits_spPack_iff s).1 h.1
  exact BitVec.toNat_ofNat _ _ |>.trans (Nat.mod_eq_of_lt (by omega))

/-- The fields of the frame are the computed length, the operands and the computed CRC. -/
theorem spaceResults_spaceFrame :
    spaceResults (spaceFrame s) = [wordOfNat (s.ibuf.length + 10), s.a[(1 : Fin 8)], s.a[(2 : Fin 8)],
      s.a[(3 : Fin 8)], s.a[(4 : Fin 8)], s.a[(5 : Fin 8)], (computedCrc s).setWidth 64] := by
  obtain ⟨-, hfields, hid⟩ := (operandsInRange_spPack_iff s).1 h
  have hheader : spaceFields (spaceFrame s) = _ := spaceFields_spaceHeader hfields _ _
  have hcrc : wordOfNat (computedCrc s).toNat = (computedCrc s).setWidth 64 := BitVec.ofNat_toNat ..
  rw [spaceResults, hheader, toNat_spaceLengthByte h, storedHardwareId_spaceFrame,
    State.toNat_argBits ((State.arg_inRange_iff 16 (by decide)).1 hid), wordOfNat_toNat,
    storedCrc_spaceFrame, hcrc]
  rfl

theorem spaceFrameFits_spaceFrame : SpaceFrameFits (spaceFrame s) := by
  obtain ⟨hlength, hfields, -⟩ := (operandsInRange_spPack_iff s).1 h
  obtain ⟨hport, -⟩ := (spaceFieldsInRange_iff s).1 hfields
  have hbyte₀ : byteAt (spaceFrame s) 0 = s.ibuf.length + 10 := toNat_spaceLengthByte h
  have hbyte₁ : byteAt (spaceFrame s) 1 = (s.a[(1 : Fin 8)]).toNat :=
    State.toNat_argBits (hport.trans_le (by decide))
  refine ⟨⟨by omega, by omega⟩, by rw [hbyte₀, length_spaceFrame], ?_⟩
  rw [storedCrc_spaceFrame, crcCoverage_spaceFrame, computedCrc]

end

/-! ### A changed byte (46_space_packet.md R232) -/

section
variable {B : Span} {k : Nat} {new : Byte}

theorem byteAt_set_self (hk : k < B.length) : byteAt (B.set k new) k = new.toNat := by
  rw [byteAt_of_lt _ (by rwa [List.length_set]), List.getElem_set_self]

theorem byteAt_set_of_ne {i : Nat} (h : k ≠ i) : byteAt (B.set k new) i = byteAt B i := by
  rw [byteAt, byteAt, List.getD_eq_getElem?_getD, List.getD_eq_getElem?_getD, List.getElem?_set_ne h]

theorem crcCoverage_set : crcCoverage (B.set k new) = (crcCoverage B).set k new := by
  rw [crcCoverage, crcCoverage, memRead, memRead, List.drop_zero, List.drop_zero, List.length_set,
    List.take_set]

/-- Changing one byte of a span changes its CRC. -/
theorem crc16_set_ne (hk : k < B.length) (hne : new ≠ B[k]) : crc16 (B.set k new) ≠ crc16 B := by
  have hsplit : B = B.take k ++ B[k] :: B.drop (k + 1) := by simp
  have h := crcFrom_ne_of_byte_ne Config.crcSeed (B.take k) (B.drop (k + 1)) hne
  rwa [← hsplit, ← List.set_eq_take_cons_drop new hk] at h

end

section
variable {s : State} {B : Span} {k : Nat} {new : Byte} (hB : SpaceFrameFits B)
include hB

/-- A changed length byte is illegal or disagrees with the size. -/
theorem exec_spUnpack_of_changed_length (hs : s.ibuf = B.set 0 new) (hlt : 0 < B.length)
    (hne : new ≠ B[0]) :
    (10 ≤ new.toNat ∧ new.toNat ≤ 251 → exec .spUnpack s = .next (s.raise ⟨.integrity, .length⟩)) ∧
      (¬ (10 ≤ new.toNat ∧ new.toNat ≤ 251) →
        exec .spUnpack s = .next (s.raise ⟨.range, .length⟩)) := by
  have hlength : s.ibuf.length = B.length := by rw [hs, List.length_set]
  have hsize : 10 ≤ s.ibuf.length := hlength ▸ hB.size
  have hbyte₀ : byteAt s.ibuf 0 = new.toNat := by rw [hs, byteAt_set_self (by omega)]
  have hbyte₁ : byteAt s.ibuf 1 = byteAt B 1 := by rw [hs, byteAt_set_of_ne (by decide)]
  have hdisagrees : byteAt s.ibuf 0 ≠ s.ibuf.length := by
    rw [hbyte₀, hlength, ← hB.agrees, byteAt_of_lt _ hlt]
    exact fun heq => hne (BitVec.eq_of_toNat_eq heq)
  rw [← hbyte₀]
  exact ⟨fun hlegal => exec_spUnpack_of_disagreement hsize ⟨hlegal, hbyte₁ ▸ hB.header.port⟩ hdisagrees,
    exec_spUnpack_of_illegal_length hsize⟩

theorem exec_spUnpack_of_changed_port (hs : s.ibuf = B.set 1 new) (hport : 1 < new.toNat) :
    exec .spUnpack s = .next (s.raise ⟨.range, .port⟩) := by
  have hsize := hB.size
  have hbyte₀ : byteAt s.ibuf 0 = byteAt B 0 := by rw [hs, byteAt_set_of_ne (by decide)]
  have hbyte₁ : byteAt s.ibuf 1 = new.toNat := by rw [hs, byteAt_set_self (by omega)]
  exact exec_spUnpack_of_illegal_port (by rwa [hs, List.length_set]) (hbyte₀ ▸ hB.header.length)
    (hbyte₁ ▸ hport)

/-- Any other change before the footer passes the checks of the length and the port, and the stored CRC is no
longer that of the covered bytes. -/
theorem exec_spUnpack_of_changed_covered (hs : s.ibuf = B.set k new) (hk : k + 4 < B.length)
    (hne : new ≠ B[k]) (hlength : k ≠ 0) (hport : k = 1 → new.toNat ≤ 1) :
    exec .spUnpack s = .next (s.raise ⟨.checksum, .crc⟩) := by
  have hsize : s.ibuf.length = B.length := by rw [hs, List.length_set]
  have hbyte₀ : byteAt s.ibuf 0 = byteAt B 0 := by rw [hs, byteAt_set_of_ne hlength]
  have hbyte₁ : byteAt s.ibuf 1 ≤ 1 := by
    rw [hs]
    rcases eq_or_ne k 1 with rfl | hother
    · exact (byteAt_set_self (by omega)).trans_le (hport rfl)
    · exact (byteAt_set_of_ne hother).trans_le hB.header.port
  have hstored : storedCrc s.ibuf = storedCrc B := by
    rw [storedCrc, storedCrc, le16At, le16At, hsize, hs, byteAt_set_of_ne (by omega),
      byteAt_set_of_ne (by omega)]
  have hcovered : k < (crcCoverage B).length := by
    rw [crcCoverage, memRead_length, Config.spFtrLen]
    omega
  have hcrc : crc16 (crcCoverage s.ibuf) ≠ crc16 (crcCoverage B) := by
    rw [hs, crcCoverage_set]
    refine crc16_set_ne hcovered ?_
    simpa [crcCoverage, memRead] using hne
  refine exec_spUnpack_of_wrong_crc (hsize ▸ hB.size) ⟨hbyte₀ ▸ hB.header.length, hbyte₁⟩
    (by rw [hbyte₀, hsize, hB.agrees]) ?_
  rw [hstored, hB.crc]
  exact fun heq => hcrc (BitVec.eq_of_toNat_eq heq.symm)

end

/-! ### The statements -/

/-- Settles O54: the computed length is checked before the command's rows of the table, and the CRC is the
document's (`toNat_crc16`). -/
theorem spPackResult : Obligations.SpPackResult := by
  refine fun s => ⟨fun h => ?_, raisesFirstRangeError_of_length (exec_spPack_eq_command s)
    (computedLengthFits_iff_spaceLength s)⟩
  obtain ⟨-, hfields, hid, -⟩ := (operandsInRange_spPack_iff s).1 h
  have hcovered : coveredBytes s = _ ++ s.ibuf := congrArg (· ++ s.ibuf) (spaceHeader_eq hfields _)
  simp only [← hcovered, ← toNat_crc16]
  rw [exec_spPack_of_inRange h, State.writeFrame, spaceFrame, spaceFooter_eq hid, computedCrc]
  simp only [State.succeed, wordOfNat, BitVec.ofNat_toNat, BitVec.setWidth_eq]

/-- Settles O55: the five checks in order, each deciding where those before it hold. -/
theorem spUnpackResult : Obligations.SpUnpackResult := by
  refine fun s => ⟨exec_spUnpack_of_short, fun b₀ b₁ b₂ b₃ b₄ b₅ h₀ h₁ c₀ c₁ p h => ?_⟩
  have hlength : s.ibuf.length = p.length + 10 := by simp [h]
  have hsize : 10 ≤ s.ibuf.length := by omega
  have hbyte₀ : byteAt s.ibuf 0 = b₀.toNat := h ▸ rfl
  have hbyte₁ : byteAt s.ibuf 1 = b₁.toNat := h ▸ rfl
  have hstored : storedCrc s.ibuf = c₀.toNat + 256 * c₁.toNat := h ▸ storedCrc_append_footer rfl _
  have hcovered : crcCoverage s.ibuf = [b₀, b₁, b₂, b₃, b₄, b₅] ++ p :=
    h ▸ crcCoverage_append_footer rfl _
  simp only [← hlength, ← hbyte₀, ← hbyte₁, ← hstored, ← hcovered, ← toNat_crc16]
  refine ⟨exec_spUnpack_of_illegal_length hsize, exec_spUnpack_of_illegal_port hsize,
    fun hlen hport => exec_spUnpack_of_disagreement hsize ⟨hlen, hport⟩,
    fun hlen hport => exec_spUnpack_of_wrong_crc hsize ⟨hlen, hport⟩, fun hlen hport hagrees hcrc => ?_⟩
  have hpayload : spacePayload s.ibuf = p := h ▸ spacePayload_append_footer rfl p rfl
  have hfields : spaceFields s.ibuf = [wordOfNat b₀.toNat, wordOfNat b₁.toNat,
      wordOfNat (b₂.toNat + 256 * b₃.toNat), wordOfNat b₄.toNat, wordOfNat b₅.toNat] := h ▸ rfl
  have hid : storedHardwareId s.ibuf = h₀.toNat + 256 * h₁.toNat :=
    h ▸ storedHardwareId_append_footer rfl _
  have hresults : spaceResults s.ibuf = [wordOfNat b₀.toNat, wordOfNat b₁.toNat,
      wordOfNat (b₂.toNat + 256 * b₃.toNat), wordOfNat b₄.toNat, wordOfNat b₅.toNat,
      wordOfNat (h₀.toNat + 256 * h₁.toNat), wordOfNat (storedCrc s.ibuf)] := by
    rw [spaceResults, hfields, hid]
    rfl
  rw [exec_spUnpack_of_fits ⟨⟨hlen, hport⟩, hagrees, hcrc⟩, State.deliverFrame, hpayload, State.setResults,
    hresults, writeFrom_zero_seven, hbyte₀, hbyte₁, BitVec.ofNat_toNat 16, BitVec.setWidth_eq]
  rfl

/-- Settles O56: the frame that SP.PACK writes fits, and its fields are the operands. -/
theorem spacePacketRoundTrip : Obligations.SpacePacketRoundTrip := by
  intro s h
  have hresults := spaceResults_spaceFrame h
  refine ⟨_, _, _, exec_spPack_of_inRange h, exec_xfer _,
    exec_spUnpack_of_fits (spaceFrameFits_spaceFrame h), statusKind_statusOk _, spacePayload_spaceFrame s,
    ?_, ?_, fun k hlo hhi => ?_⟩
  · simp [hresults, writeFrom_zero_seven, wordOfNat]
  · simp [hresults, writeFrom_zero_seven]
  · obtain rfl | rfl | rfl | rfl | rfl : k = 1 ∨ k = 2 ∨ k = 3 ∨ k = 4 ∨ k = 5 := by omega
    all_goals simp [hresults, writeFrom_zero_seven]

/-- Settles O57: the frame that SP.PACK writes fits, so each change fails the first check that reads it. -/
theorem changedByteIsDetected : Obligations.ChangedByteIsDetected := by
  intro s t k old new h ht hk hold hne u raises
  obtain rfl := Host.Outcome.next.inj ((exec_spPack_of_inRange h).symm.trans ht)
  have hfits := spaceFrameFits_spaceFrame h
  have hu : u.ibuf = (spaceFrame s).set k new := rfl
  obtain ⟨hlt, rfl⟩ := List.getElem?_eq_some_iff.1 hold
  split_ifs with hlength hlegal hport
  · subst hlength
    exact (exec_spUnpack_of_changed_length hfits hu hlt hne).1 hlegal
  · subst hlength
    exact (exec_spUnpack_of_changed_length hfits hu hlt hne).2 hlegal
  · obtain ⟨rfl, hnew⟩ := hport
    exact exec_spUnpack_of_changed_port hfits hu hnew
  · exact exec_spUnpack_of_changed_covered hfits hu hk hne hlength fun hone =>
      Nat.le_of_not_lt fun hnew => hport ⟨hone, hnew⟩

end Sys2Proof.Machine
end

section
/-! SUPPORT. The system commands NOP, XFER and CLRERR (47_system.md R250 to R252), none of which can fail: the
next state of each. -/

namespace Sys2Proof.Machine

theorem exec_nop (s : State) : exec .nop s = .next s.succeed := rfl

/-- Settles O18: NOP and XFER have no checks, so each has its effect and succeeds; CLRERR writes `STATUS`
itself. -/
theorem systemCommandResults : Obligations.SystemCommandResults := by
  intro s
  refine ⟨?nop, ?xfer, ?clrerr⟩
  case nop => rw [exec_nop, State.succeed]
  case xfer => rw [exec_xfer, State.succeed, State.loadSpan]
  case clrerr => exact execClrerr_eq s

end Sys2Proof.Machine
end

section
/-! SUPPORT. Commands that fail (60_exceptions.md R280): a nonzero `KIND` is left only by `State.raise`. -/

namespace Sys2Proof.Machine

/-- A command whose next state has a nonzero `KIND` has raised one of its errors: CLRERR, SRESET and every
success leave `KIND` 0. -/
theorem eq_raise_of_exec_failed {i : Instr} {s t : State} (h : exec i s = .next t)
    (hfailed : statusKind t.status ≠ 0) : ∃ e ∈ legalErrors i, t = s.raise e := by
  rcases exec_cases h with ⟨-, rfl⟩ | ⟨-, rfl⟩ | hraised | ⟨u, -, -, rfl⟩
  · exact absurd rfl hfailed
  · exact absurd rfl hfailed
  · exact hraised
  · exact absurd (statusKind_statusOk u.status) hfailed

/-- Settles O11: a failing command, or an unlisted opcode, ends in `State.raise`, which writes `STATUS` only. -/
theorem failingCommandWritesOnlyStatus : Obligations.FailingCommandWritesOnlyStatus := by
  intro op s t h hfailed
  rcases runCommand_cases h with ⟨i, hexec⟩ | rfl
  · obtain ⟨e, -, rfl⟩ := eq_raise_of_exec_failed hexec hfailed
    rfl
  · rfl

end Sys2Proof.Machine
end

section
/-! SUPPORT. The link chain (48_link_chain.md R260 to R265), for every FEC code: the chunks of an encoded span,
what a code with L2 and L4 returns for them, and then the two chains, command by command. -/

namespace Sys2Proof.Machine

/-! ### The chunks of a span (48_link_chain.md R264) -/

@[simp] theorem length_chunksOf (B : Span) : (chunksOf B).length = B.length / Config.fecGroup := by
  simp [chunksOf]

theorem length_of_mem_chunksOf {B c : Span} (h : c ∈ chunksOf B) : c.length = Config.fecGroup := by
  obtain ⟨k, hk, rfl⟩ := List.mem_map.1 h
  have hend : Config.fecGroup * (k + 1) ≤ B.length :=
    (Nat.mul_le_mul_left _ (List.mem_range.1 hk)).trans (Nat.mul_div_le ..)
  rw [memRead_length, Nat.min_eq_left]
  rw [Nat.mul_succ] at hend
  omega

/-- L1 in chunks: the encoder makes one chunk of each byte (43_fec.md R172). -/
theorem length_chunksOf_encode (code : FecCode) (p : Span) :
    (chunksOf (code.encode p).toList).length = p.length := by
  rw [length_chunksOf, Vector.length_toList, Nat.mul_div_cancel_left _ (by decide)]

/-! ### A code on clean input (43_fec.md R172) -/

/-- An accepted chunk gives the first span; the code goes on from the history it left. -/
theorem submitSpans_cons_eq_some {code : FecCode} {h : FecHist} {c : Span} {cs outs : List Span}
    (houts : submitSpans code h (c :: cs) = some outs) :
    ∃ h' out rest, code.step h c = some (h', out) ∧ submitSpans code h' cs = some rest ∧
      outs = out.val :: rest := by
  rw [submitSpans] at houts
  split at houts
  next => nomatch houts
  next h' out hstep =>
    obtain ⟨rest, hrest, rfl⟩ := Option.map_eq_some_iff.1 houts
    exact ⟨h', out, rest, hstep, hrest, rfl⟩

theorem length_submitSpans {code : FecCode} {h : FecHist} {cs outs : List Span}
    (houts : submitSpans code h cs = some outs) : outs.length = cs.length := by
  induction cs generalizing h outs with
  | nil => obtain rfl := Option.some.inj houts; rfl
  | cons c cs ih =>
    obtain ⟨h', out, rest, -, hrest, rfl⟩ := submitSpans_cons_eq_some houts
    rw [List.length_cons, List.length_cons, ih hrest]

/-- What L2 and L4 come to: L2 gives a first part of the payload, and with one byte for each chunk (L4) and one
chunk for each byte (L1) that part is the whole. -/
theorem submitSpans_encode {code : FecCode} (hsound : SoundOnCleanInput code) (hlatency : ZeroLatency code)
    (p : Span) : ∃ outs, submitSpans code code.hist0 (chunksOf (code.encode p).toList) = some outs ∧
      outs.flatten = p := by
  obtain ⟨outs, houts, hfirst⟩ := hsound p
  have hones : outs.map List.length = List.replicate outs.length 1 :=
    List.eq_replicate_iff.2 ⟨List.length_map _, List.forall_mem_map.2 (hlatency p outs houts)⟩
  have hlength : outs.flatten.length = p.length := by
    rw [List.length_flatten, hones, List.sum_replicate_nat, Nat.mul_one, length_submitSpans houts,
      length_chunksOf_encode]
  exact ⟨outs, houts, hfirst.eq_of_length hlength⟩

/-! ### The FEC commands for a given code (43_fec.md R173, R176, R177) -/

theorem fecEncodeWith_of_fits (code : FecCode) {s : State}
    (h : Config.fecGroup * s.ibuf.length ≤ Config.bufCap) :
    fecEncodeWith code s = (s.memWrite (code.encode s.ibuf).toList).succeed :=
  State.command_of_holds s _ (List.forall_mem_singleton.2 (decide_eq_true h))

theorem fecPrimeWith_of_unprimed (code : FecCode) {s : State} (h : s.fecPhase = .unprimed) :
    fecPrimeWith code s = { s.memWrite [] with fecHist := code.hist0, fecPhase := .primedEmpty }.succeed :=
  State.command_of_holds s _ (List.forall_mem_singleton.2 (decide_eq_true h))

/-- A primed decoder that is given chunks its code accepts: the host gathers what the code returns for them, and
no submission raises. -/
theorem submitLoop_of_accepted (code : FecCode) {cs outs : List Span}
    (hsize : ∀ c ∈ cs, c.length = Config.fecGroup) (gathered : Span) {s : State} (hphase : s.fecPhase ≠ .unprimed)
    (houts : submitSpans code s.fecHist cs = some outs) :
    ∃ u, submitLoop code cs gathered s = (u, gathered ++ outs.flatten) ∧
      statusSticky u.status = statusSticky s.status := by
  induction cs generalizing gathered s outs with
  | nil =>
    obtain rfl := Option.some.inj houts
    exact ⟨s, by rw [submitLoop, List.flatten_nil, List.append_nil], rfl⟩
  | cons c cs ih =>
    obtain ⟨hc, hcs⟩ := List.forall_mem_cons.1 hsize
    obtain ⟨h, out, rest, hstep, hrest, rfl⟩ := submitSpans_cons_eq_some houts
    have hsubmit := fecSubmitWith_of_accepted (s := s.loadSpan c) code hphase hc hstep
    obtain ⟨u, hloop, hsticky⟩ := ih hcs (gathered ++ out.val)
      (s := fecSubmitWith code (s.loadSpan c)) (by rw [hsubmit]; nofun) (by rw [hsubmit]; exact hrest)
    refine ⟨u, ?_, ?_⟩
    · have hobuf : (fecSubmitWith code (s.loadSpan c)).obuf = out.val := by rw [hsubmit]
      rw [submitLoop, hobuf, hloop, List.flatten_cons, List.append_assoc]
    · rw [hsticky, hsubmit]
      exact statusSticky_statusOk s.status

/-! ### The transmit chain (48_link_chain.md R260) -/

/-- The raw RF bytes of a frame: encoded, then whitened. -/
def rfBytes (code : FecCode) (frame : Span) : Span := whitenSpan (code.encode frame).toList

/-- Every frame that SP.PACK writes fits the output buffer when encoded (48_link_chain.md R262). -/
theorem encoded_spaceFrame_fits {s : State} (h : OperandsInRange .spPack s) :
    Config.fecGroup * (spaceFrame s).length ≤ Config.bufCap := by
  have hfits := (computedLengthFits_spPack_iff s).1 h.1
  rw [length_spaceFrame, Config.fecGroup, Config.bufCap]
  omega

@[simp] theorem State.writeFrame_status (s : State) : s.writeFrame.status = s.status := rfl

/-- Each of the five commands succeeds. -/
theorem transmitChain_of_inRange (code : FecCode) {s : State} (h : OperandsInRange .spPack s) :
    ∃ t, transmitChain code s = .next t ∧ t.obuf = rfBytes code (spaceFrame s) ∧
      statusSticky t.status = statusSticky s.status := by
  rw [transmitChain, exec_spPack_of_inRange h, andThen_next, exec_xfer, andThen_next,
    fecEncodeWith_of_fits code, andThen_next, exec_xfer, andThen_next, exec_whiten]
  · exact ⟨_, rfl, rfl, by simp⟩
  · exact encoded_spaceFrame_fits h

/-! ### The receive chain (48_link_chain.md R264) -/

/-- FEC.PRIME and the submissions give the host the span that was encoded, and none of them raises. -/
theorem submitLoop_encode {code : FecCode} (hsound : SoundOnCleanInput code) (hlatency : ZeroLatency code)
    (p : Span) {s : State} (hphase : s.fecPhase = .unprimed) :
    ∃ u, submitLoop code (chunksOf (code.encode p).toList) [] (fecPrimeWith code s) = (u, p) ∧
      statusSticky u.status = statusSticky s.status := by
  obtain ⟨outs, houts, hflatten⟩ := submitSpans_encode hsound hlatency p
  rw [fecPrimeWith_of_unprimed code hphase]
  obtain ⟨u, hloop, hsticky⟩ := submitLoop_of_accepted code (fun _ => length_of_mem_chunksOf) []
    (s := { s.memWrite [] with fecHist := code.hist0, fecPhase := .primedEmpty }.succeed) (by simp) houts
  exact ⟨u, by rw [hloop, List.nil_append, hflatten], hsticky.trans (statusSticky_statusOk _)⟩

/-- SP.UNPACK is given the frame whose raw RF bytes were received, and no command before it raises. -/
theorem receiveChain_rfBytes {code : FecCode} (hsound : SoundOnCleanInput code) (hlatency : ZeroLatency code)
    (frame : Span) (s : State) :
    ∃ u : State, receiveChain code (rfBytes code frame) s = exec .spUnpack (u.loadSpan frame) ∧
      statusSticky u.status = statusSticky s.status := by
  obtain ⟨t, hwhiten, hobuf, ht⟩ : ∃ t, exec .whiten (s.loadSpan (rfBytes code frame)) = .next t ∧
      t.obuf = (code.encode frame).toList ∧ statusSticky t.status = statusSticky s.status :=
    ⟨_, exec_whiten _, whitenSpan_whitenSpan _, statusSticky_statusOk _⟩
  obtain ⟨u, hloop, hu⟩ := submitLoop_encode hsound hlatency frame
    (s := { t with fecPhase := .unprimed, status := statusOk t.status }) rfl
  rw [← hobuf] at hloop
  refine ⟨u, by rw [receiveChain, hwhiten, andThen_next, exec_fecNew, andThen_next, hloop], ?_⟩
  rw [hu, statusSticky_statusOk, ht]

@[simp] theorem State.deliverFrame_status (s : State) : s.deliverFrame.status = s.status := by
  rw [State.deliverFrame, State.memWrite_status, State.setResults_status]

/-- SP.UNPACK, given a frame that SP.PACK wrote, delivers what SP.PACK was given (46_space_packet.md R231),
whatever else the two states hold. -/
theorem exec_spUnpack_spaceFrame {s u : State} (h : OperandsInRange .spPack s) (hu : u.ibuf = spaceFrame s) :
    ∃ v, exec .spUnpack u = .next v ∧ v.status = statusOk u.status ∧ v.obuf = s.ibuf ∧
      ∀ k : Fin 8, 1 ≤ k.val → k.val ≤ 5 → v.r[k] = s.a[k] := by
  refine ⟨_, exec_spUnpack_of_fits (hu ▸ spaceFrameFits_spaceFrame h), ?_, ?_, fun k hlo hhi => ?_⟩
  · rw [State.succeed_status, State.deliverFrame_status]
  · rw [State.succeed_obuf, State.deliverFrame_obuf, hu, spacePayload_spaceFrame]
  · rw [State.succeed_r, State.deliverFrame_r, hu, spaceResults_spaceFrame h, writeFrom_zero_seven]
    obtain rfl | rfl | rfl | rfl | rfl : k = 1 ∨ k = 2 ∨ k = 3 ∨ k = 4 ∨ k = 5 := by omega
    all_goals simp

/-! ### The obligation -/

/-- Settles O58: whitening is its own inverse, the code gives back the span it encoded, and SP.UNPACK undoes
SP.PACK; no success changes STICKY. -/
theorem linkChainIsIdentity : Obligations.LinkChainIsIdentity := by
  intro code s s' hsound hlatency h hs hs'
  obtain ⟨t, htransmit, hraw, ht⟩ := transmitChain_of_inRange code h
  obtain ⟨w, hreceive, hw⟩ := receiveChain_rfBytes hsound hlatency (spaceFrame s) s'
  obtain ⟨u, hunpack, hstatus, hpayload, hfields⟩ :=
    exec_spUnpack_spaceFrame (u := w.loadSpan (spaceFrame s)) h rfl
  refine ⟨t, u, htransmit, by rw [hraw, hreceive, hunpack], ht.trans hs, ?_, ?_, hpayload, hfields⟩
  · rw [hstatus, statusSticky_statusOk]
    exact hw.trans hs'
  · rw [hstatus, statusKind_statusOk]

end Sys2Proof.Machine
end
